-- ==== Sys2Proof/Word.lean ====
section
/-! DEFINITION. The two widths of the block's values (spec 00_scope R6, R7): bytes and 16-bit words, all unsigned. -/

namespace Sys2Proof

/-- A byte (R7): an opcode, a parameter byte, half a coordinate or half a colour. -/
abbrev Byte := BitVec 8

/-- A coordinate (`COORD_W`) or a colour (`COLOR_W`), 16 bits each (R6). -/
abbrev Word := BitVec 16

end Sys2Proof
end

