-- ==== Sys2Proof/Syntax.lean ====
section
/-! DEFINITION. The instructions of spec/opcode_table.json, the Command Table's names, and the requests of the host. -/

namespace Sys2Proof

/-- The Command Table (30_encoding R78): the closed enumeration of the sixteen controller commands. -/
inductive Cmd where
  | swreset | slpin | slpout | ptlon | noron | invoff | invon | dispoff
  | dispon | caset | raset | ramwr | madctl | idmoff | idmon | colmod
  deriving DecidableEq, Repr

/-- The host operations (30_encoding R82), in the order of their selectors. -/
inductive Op where
  | setColumnAddress | setRowAddress | setAddressWindow | writeSinglePixel | writePixelStream | hardReset | softReset | sleepOut
  | sleepIn | colorMode | memoryAccessControl | displayOn | displayOff | inversionOn | inversionOff | partialDisplayMode
  | normalMode | idleOn | idleOff | initializePanel | attach | attachConfig | release
  deriving DecidableEq, Repr

/-- The six independent two-valued choices of the orientation register (10_state R29).
`false` is the choice R29 calls the default (encoded 0), `true` the other one. -/
structure Orientation where
  /-- MY: false top to bottom, true bottom to top. -/
  pageOrder : Bool
  /-- MX: false left to right, true right to left. -/
  columnOrder : Bool
  /-- MV: false normal, true rows and columns exchanged. -/
  pageColumnSwap : Bool
  /-- ML: false refresh top to bottom, true bottom to top. -/
  lineOrder : Bool
  /-- RGB: false RGB, true BGR. -/
  colorOrder : Bool
  /-- MH: false refresh left to right, true right to left. -/
  latchOrder : Bool
  deriving DecidableEq, Repr

/-- The host's token for a bus or pin it hands over (10_state R22). DESIGN CHOICE (safe, log 7): a
number that stands for the resource and is only ever handed back. -/
abbrev Handle := Nat

/-- The pin/config resource bundle (10_state R22): data/command and reset pins mandatory, chip-select optional. -/
structure PinBundle where
  dc : Handle
  rst : Handle
  cs : Option Handle
  deriving DecidableEq, Repr

/-- The owned resources `S.res` (10_state R22): the bus handle and the pin bundle. -/
structure Resources where
  bus : Handle
  pins : PinBundle
  deriving DecidableEq, Repr

/-- One constructor per row of spec/opcode_table.json: the 23 operations of 30_encoding R82, then the
16 wire frames of R78. A wire frame as an instruction is the framer asked to send that frame
(40_framer R100, R101: "a model may still expose them"). DESIGN CHOICE (safe, log 9). -/
inductive Instr where
  | setColumnAddress (start last : Word)
  | setRowAddress (start last : Word)
  | setAddressWindow (colStart rowStart colEnd rowEnd : Word)
  | writeSinglePixel (x y color : Word)
  | writePixelStream (colStart rowStart colEnd rowEnd : Word) (colors : List Word)
  | hardReset
  | softReset
  | sleepOut
  | sleepIn
  | colorMode (format : Byte)
  | memoryAccessControl (config : Orientation)
  | displayOn
  | displayOff
  | inversionOn
  | inversionOff
  | partialDisplayMode
  | normalMode
  | idleOn
  | idleOff
  | initializePanel
  | attach (bus : Handle) (pins : PinBundle)
  | attachConfig (bus : Handle) (config : PinBundle)
  | release
  | swreset
  | slpin
  | slpout
  | ptlon
  | noron
  | invoff
  | invon
  | dispoff
  | dispon
  | caset (start last : Word)
  | raset (start last : Word)
  | ramwr (colors : List Word)
  | madctl (config : Orientation)
  | idmoff
  | idmon
  | colmod (format : Byte)
  deriving DecidableEq, Repr

/-- The side operands of a request (30_encoding R81): the colour source (10_state R38; finite: PRESUMED, unsafe, log 27), and for the two
attach operations the resources. `cs` is the chip-select pin; for `attach` the flag `a[0]`, for
`attach_config` the flag `configHasCs`, says whether it is part of the bundle. -/
structure Side where
  colors : List Word := []
  bus : Handle := 0
  dc : Handle := 0
  rst : Handle := 0
  cs : Handle := 0
  configHasCs : Bool := false
  deriving DecidableEq, Repr

/-- A request word `REQ` by its fields (30_encoding R81), with its side operands. -/
structure Req where
  sel : Byte
  a : Word
  b : Word
  c : Word
  d : Word
  side : Side
  deriving DecidableEq, Repr

/-- What the host presents: a request word (R81), or a wire frame for the framer to send, its first
byte the opcode and the rest the bytes of the data phases (R70 to R74; log 9). -/
inductive Request where
  | req (r : Req)
  | frame (bytes : List Byte)
  deriving DecidableEq, Repr

/-- Why a request names no instruction (60_exceptions R195, 30_encoding R79, R83). -/
inductive Reject where
  /-- A selector that is not in `OPSEL`; with the table of R82, `0x00` and `0x18` to `0xFF` (R83). -/
  | unknownSelector (sel : Byte)
  /-- An orientation byte with a bit no field owns (R195). -/
  | orientationBits (b : Byte)
  /-- A frame of no byte: there is no opcode (R70). -/
  | emptyFrame
  /-- An opcode byte that is not a Command (R79, R195). -/
  | unknownOpcode (b : Byte)
  /-- A frame whose data bytes do not fit its command's format (R70 to R74, R80). -/
  | frameLength (opcode : Byte)
  deriving DecidableEq, Repr

end Sys2Proof
end

