-- ==== Sys2Proof/Config.lean ====
section
/-! DEFINITION. The implementation parameters (00_scope R6, 92_eei_decisions section 6).
Every parameter of R6 is a field of `Config`, but for the three widths (`Word`, `Byte`), `HAS_CS` (fixed at attach) and what has
no default; a record the machine is given (R6 "a model takes them as a configuration record"; R78 "a model should
keep OPC a table it can be given"); what has no default is opaque. -/

namespace Sys2Proof

/-- A level a pin is driven to (R9). -/
inductive Level where
  | low
  | high
  deriving DecidableEq, Repr

/-- `OPC`, the opcode byte of each of the sixteen commands (30_encoding R78). -/
structure OpcTable where
  swreset : Byte
  slpin : Byte
  slpout : Byte
  ptlon : Byte
  noron : Byte
  invoff : Byte
  invon : Byte
  dispoff : Byte
  dispon : Byte
  caset : Byte
  raset : Byte
  ramwr : Byte
  madctl : Byte
  idmoff : Byte
  idmon : Byte
  colmod : Byte
  deriving DecidableEq, Repr

/-- `MADCTL_BIT`, the bit each orientation field owns (10_state R29), by its position. -/
structure MadctlBits where
  page : Fin 8
  column : Fin 8
  swap : Fin 8
  line : Fin 8
  color : Fin 8
  latch : Fin 8
  deriving DecidableEq, Repr

/-- `OPSEL`, the request selector of each of the 23 operations (30_encoding R82, D12). -/
structure SelectorTable where
  setColumnAddress : Byte
  setRowAddress : Byte
  setAddressWindow : Byte
  writeSinglePixel : Byte
  writePixelStream : Byte
  hardReset : Byte
  softReset : Byte
  sleepOut : Byte
  sleepIn : Byte
  colorMode : Byte
  memoryAccessControl : Byte
  displayOn : Byte
  displayOff : Byte
  inversionOn : Byte
  inversionOff : Byte
  partialDisplayMode : Byte
  normalMode : Byte
  idleOn : Byte
  idleOff : Byte
  initializePanel : Byte
  attach : Byte
  attachConfig : Byte
  release : Byte
  deriving DecidableEq, Repr

/-- `ERRCODE`, the numeric code of each of the four errors (60_exceptions R181, D11). -/
structure ErrorCodes where
  invalidColumnAddress : Byte
  invalidRowAddress : Byte
  pinError : Byte
  busError : Byte
  deriving DecidableEq, Repr

/-- The configuration record (R6). It is held in `State.cfg` and no step changes it (log 1). -/
structure Config where
  /-- `OPC` (R78, D2). -/
  opc : OpcTable
  /-- `MADCTL_BIT` (R29, D3). -/
  madctlBit : MadctlBits
  /-- `COLMOD_SET`, the legal pixel-format bytes (R30, D4). -/
  colmodSet : List Byte
  /-- `DC_CMD_LEVEL` (R103, D5); `DC_DATA_LEVEL` is the other level. -/
  dcCmdLevel : Level
  /-- `CS_LOW_ON_ATTACH` (R130, D6). DESIGN CHOICE of the spec (log 23). -/
  csLowOnAttach : Bool
  /-- `EMPTY_PARAMS_DATA_PHASE` (R100, D7). DESIGN CHOICE of the spec (log 24). -/
  emptyParamsDataPhase : Bool
  /-- `PANEL_W`, `PANEL_H` (R58, D14). -/
  panelW : Nat
  panelH : Nat
  /-- `INIT_COL_END`, `INIT_ROW_END` (R147, D14, C6). DESIGN CHOICE of the spec (log 26). -/
  initColEnd : Word
  initRowEnd : Word
  /-- `INIT_COLMOD`, the pixel-format byte `initialize` sends (R147). -/
  initColmod : Byte
  /-- `INIT_MADCTL`, the orientation byte `initialize` sends (R147). -/
  initMadctl : Byte
  /-- `T_RST_HIGH1`, `T_RST_LOW`, `T_RST_HIGH2` in milliseconds (R133, R150). -/
  tRstHigh1 : Nat
  tRstLow : Nat
  tRstHigh2 : Nat
  /-- `T_SWRESET`, `T_SLPOUT`, `T_SLPIN`, `T_COLMOD` in milliseconds (R134 to R137, R150). -/
  tSwreset : Nat
  tSlpout : Nat
  tSlpin : Nat
  tColmod : Nat
  /-- `ERRCODE` (R181, D11). DESIGN CHOICE of the spec (log 30). -/
  errCode : ErrorCodes
  /-- `OPSEL` (R82, D12). -/
  opsel : SelectorTable
  deriving DecidableEq, Repr

/-- The values the spec takes (R6, R29, R30, R78, R82, R150, R181). PRESUMED (unsafe, logs 1 to 4): the opcode bytes, the
orientation bits, seven of the pixel-format bytes and the pin polarity are general knowledge of the family. -/
def Config.default : Config where
  opc :=
    { swreset := 0x01, slpin := 0x10, slpout := 0x11, ptlon := 0x12, noron := 0x13, invoff := 0x20, invon := 0x21,
      dispoff := 0x28, dispon := 0x29, caset := 0x2A, raset := 0x2B, ramwr := 0x2C, madctl := 0x36, idmoff := 0x38,
      idmon := 0x39, colmod := 0x3A }
  madctlBit := { page := 7, column := 6, swap := 5, line := 4, color := 3, latch := 2 }
  colmodSet := [0x53, 0x55, 0x56, 0x57, 0x63, 0x65, 0x66, 0x67]
  dcCmdLevel := .low
  csLowOnAttach := true
  emptyParamsDataPhase := false
  panelW := 240
  panelH := 240
  initColEnd := 0x00F0
  initRowEnd := 0x00F0
  initColmod := 0x55
  initMadctl := 0x00
  tRstHigh1 := 1
  tRstLow := 1
  tRstHigh2 := 120
  tSwreset := 150
  tSlpout := 500
  tSlpin := 5
  tColmod := 10
  errCode := { invalidColumnAddress := 1, invalidRowAddress := 2, pinError := 3, busError := 4 }
  opsel :=
    { setColumnAddress := 0x01, setRowAddress := 0x02, setAddressWindow := 0x03, writeSinglePixel := 0x04, writePixelStream := 0x05, hardReset := 0x06,
      softReset := 0x07, sleepOut := 0x08, sleepIn := 0x09, colorMode := 0x0A, memoryAccessControl := 0x0B, displayOn := 0x0C,
      displayOff := 0x0D, inversionOn := 0x0E, inversionOff := 0x0F, partialDisplayMode := 0x10, normalMode := 0x11, idleOn := 0x12,
      idleOff := 0x13, initializePanel := 0x14, attach := 0x15, attachConfig := 0x16, release := 0x17 }

/-- The sixteen opcode bytes in the table's order. -/
def OpcTable.toList (t : OpcTable) : List Byte :=
  [t.swreset, t.slpin, t.slpout, t.ptlon, t.noron, t.invoff, t.invon, t.dispoff,
   t.dispon, t.caset, t.raset, t.ramwr, t.madctl, t.idmoff, t.idmon, t.colmod]

/-- The six bit positions in the order of R29. -/
def MadctlBits.toList (b : MadctlBits) : List (Fin 8) := [b.page, b.column, b.swap, b.line, b.color, b.latch]

/-- The 23 selectors in the order of R82. -/
def SelectorTable.toList (t : SelectorTable) : List Byte :=
  [t.setColumnAddress, t.setRowAddress, t.setAddressWindow, t.writeSinglePixel, t.writePixelStream, t.hardReset,
   t.softReset, t.sleepOut, t.sleepIn, t.colorMode, t.memoryAccessControl, t.displayOn,
   t.displayOff, t.inversionOn, t.inversionOff, t.partialDisplayMode, t.normalMode, t.idleOn,
   t.idleOff, t.initializePanel, t.attach, t.attachConfig, t.release]

/-- The four codes in the order of R181. -/
def ErrorCodes.toList (c : ErrorCodes) : List Byte :=
  [c.invalidColumnAddress, c.invalidRowAddress, c.pinError, c.busError]

/-- The constraints the spec keeps whatever the values: sixteen distinct opcodes (D2), six distinct
bits (D3), eight pixel-format bytes with `0x55` among them (D4). That the two levels of the
data/command pin differ (D5) holds by construction. DEDUCED (safe, log 1): the bytes `initialize` sends are legal operands
(R30, R76), 23 distinct selectors (R82), four distinct codes none of which is the 0 of `Ok` (R181). -/
abbrev Config.Ok (cfg : Config) : Prop :=
  cfg.opc.toList.Nodup ∧ cfg.madctlBit.toList.Nodup ∧
  cfg.colmodSet.Nodup ∧ cfg.colmodSet.length = 8 ∧ 0x55#8 ∈ cfg.colmodSet ∧
  cfg.initColmod ∈ cfg.colmodSet ∧ (∀ k : Fin 8, cfg.initMadctl.getLsbD k = true → k ∈ cfg.madctlBit.toList) ∧
  cfg.opsel.toList.Nodup ∧ (0#8 :: cfg.errCode.toList).Nodup

/-- The default choice of every orientation field (R29), which encodes as `0x00` (R76). -/
def defaultOrientation : Orientation :=
  { pageOrder := false, columnOrder := false, pageColumnSwap := false, lineOrder := false, colorOrder := false, latchOrder := false }

/-- `RELEASE_RETURNS_ON_ERROR` (R132, D17): whether a release that fails with `PinError` hands the
resources back is open with no default, so it is a free value: no body, nothing can be proved of it.
DESIGN CHOICE (safe, log 18). -/
opaque Config.releaseReturnsOnError : Bool

end Sys2Proof
end

