-- ==== Sys2Proof/Machine/Operands.lean ====
section
/-! DEFINITION. Operand assembly and the lookups of the Command Table and the selectors (30_encoding R75 to R78, R82). -/

namespace Sys2Proof.Machine

/-- `hi8(v) = v[15:8]` (00_scope R7). -/
def hi8 (v : Word) : Byte := v.extractLsb' 8 8

/-- `lo8(v) = v[7:0]` (00_scope R7). -/
def lo8 (v : Word) : Byte := v.extractLsb' 0 8

/-- `be16(v)`, most significant byte first (R7, R51, R75). -/
def be16 (v : Word) : List Byte := [hi8 v, lo8 v]

/-- The word of a high and a low byte, as the controller reads a pixel (20_memory R62 `(h << 8) | l`). -/
def word16 (h l : Byte) : Word := h ++ l

/-- The four parameter bytes of an address-window frame (R52, R73). -/
def windowBytes (start last : Word) : List Byte := be16 start ++ be16 last

/-- `OPC(cmd)` (R78). -/
def opcode (cfg : Config) (cmd : Cmd) : Byte :=
  match cmd with
  | .swreset => cfg.opc.swreset
  | .slpin => cfg.opc.slpin
  | .slpout => cfg.opc.slpout
  | .ptlon => cfg.opc.ptlon
  | .noron => cfg.opc.noron
  | .invoff => cfg.opc.invoff
  | .invon => cfg.opc.invon
  | .dispoff => cfg.opc.dispoff
  | .dispon => cfg.opc.dispon
  | .caset => cfg.opc.caset
  | .raset => cfg.opc.raset
  | .ramwr => cfg.opc.ramwr
  | .madctl => cfg.opc.madctl
  | .idmoff => cfg.opc.idmoff
  | .idmon => cfg.opc.idmon
  | .colmod => cfg.opc.colmod

/-- The sixteen commands in the order of the Command Table (R78). -/
def allCmds : List Cmd :=
  [.swreset, .slpin, .slpout, .ptlon, .noron, .invoff, .invon, .dispoff,
   .dispon, .caset, .raset, .ramwr, .madctl, .idmoff, .idmon, .colmod]

/-- The command an opcode byte names, if any (R79: no other byte is a Command). -/
def cmdOfOpcode (cfg : Config) (b : Byte) : Option Cmd := allCmds.find? (fun c => opcode cfg c == b)

/-- `OPSEL(op)` (R82). -/
def selector (cfg : Config) (op : Op) : Byte :=
  match op with
  | .setColumnAddress => cfg.opsel.setColumnAddress
  | .setRowAddress => cfg.opsel.setRowAddress
  | .setAddressWindow => cfg.opsel.setAddressWindow
  | .writeSinglePixel => cfg.opsel.writeSinglePixel
  | .writePixelStream => cfg.opsel.writePixelStream
  | .hardReset => cfg.opsel.hardReset
  | .softReset => cfg.opsel.softReset
  | .sleepOut => cfg.opsel.sleepOut
  | .sleepIn => cfg.opsel.sleepIn
  | .colorMode => cfg.opsel.colorMode
  | .memoryAccessControl => cfg.opsel.memoryAccessControl
  | .displayOn => cfg.opsel.displayOn
  | .displayOff => cfg.opsel.displayOff
  | .inversionOn => cfg.opsel.inversionOn
  | .inversionOff => cfg.opsel.inversionOff
  | .partialDisplayMode => cfg.opsel.partialDisplayMode
  | .normalMode => cfg.opsel.normalMode
  | .idleOn => cfg.opsel.idleOn
  | .idleOff => cfg.opsel.idleOff
  | .initializePanel => cfg.opsel.initializePanel
  | .attach => cfg.opsel.attach
  | .attachConfig => cfg.opsel.attachConfig
  | .release => cfg.opsel.release

/-- The 23 operations in the order of R82. -/
def allOps : List Op :=
  [.setColumnAddress, .setRowAddress, .setAddressWindow, .writeSinglePixel, .writePixelStream, .hardReset,
   .softReset, .sleepOut, .sleepIn, .colorMode, .memoryAccessControl, .displayOn,
   .displayOff, .inversionOn, .inversionOff, .partialDisplayMode, .normalMode, .idleOn,
   .idleOff, .initializePanel, .attach, .attachConfig, .release]

/-- The operation a selector names, if any (R82, R83). -/
def opOfSelector (cfg : Config) (sel : Byte) : Option Op := allOps.find? (fun op => selector cfg op == sel)

/-- `DC_DATA_LEVEL`, the level that is not `DC_CMD_LEVEL` (40_framer R103, D5). -/
def dcDataLevel (cfg : Config) : Level :=
  match cfg.dcCmdLevel with
  | .low => .high
  | .high => .low

/-- One field's contribution to the orientation byte: 0 for the default choice, its bit for the other (R76). -/
def orientationBit (choice : Bool) (bit : Fin 8) : Byte := if choice then BitVec.twoPow 8 bit.val else 0#8

/-- `encode_madctl(cfg)`, the OR of the six contributions (R76). -/
def encodeMadctl (bits : MadctlBits) (o : Orientation) : Byte :=
  orientationBit o.pageOrder bits.page ||| orientationBit o.columnOrder bits.column |||
  orientationBit o.pageColumnSwap bits.swap ||| orientationBit o.lineOrder bits.line |||
  orientationBit o.colorOrder bits.color ||| orientationBit o.latchOrder bits.latch

/-- The configuration whose fields are the bits of an orientation byte (R76 read backwards). -/
def orientationFields (bits : MadctlBits) (b : Byte) : Orientation where
  pageOrder := b.getLsbD bits.page
  columnOrder := b.getLsbD bits.column
  pageColumnSwap := b.getLsbD bits.swap
  lineOrder := b.getLsbD bits.line
  colorOrder := b.getLsbD bits.color
  latchOrder := b.getLsbD bits.latch

/-- The configuration an orientation byte encodes, none if the byte has a bit no field owns (R76, R195). -/
def decodeMadctl (bits : MadctlBits) (b : Byte) : Option Orientation :=
  if encodeMadctl bits (orientationFields bits b) = b then some (orientationFields bits b) else none

/-- The opcode byte and parameter bytes of a colour's pixel data phase (R53, R74). -/
def pixelBytes (colors : List Word) : List Byte := colors.flatMap be16

/-- The colours of a run of pixel bytes; none if a pixel is cut (R74: each pixel is exactly two bytes). -/
def pixelWords : List Byte → Option (List Word)
  | [] => some []
  | [_] => none
  | h :: l :: rest => (pixelWords rest).map (word16 h l :: ·)

end Sys2Proof.Machine
end

