-- ==== Sys2Proof/Machine/Flags.lean ====
section
/-! DEFINITION. The block has no flag and no condition code (10_state R26). The only condition an operation
tests stands here: `start > end` on its own operands, unsigned 16 bits (30_encoding R75). -/

namespace Sys2Proof.Machine

/-- `start > end`, unsigned 16-bit (41_addressing R110, R111). -/
def startAfterEnd (start last : Word) : Bool := decide (last < start)

/-- The host interface's only other test: whether a byte is a member of `COLMOD_SET` (R30, R77, R195). -/
def legalFormat (cfg : Config) (format : Byte) : Bool := decide (format ∈ cfg.colmodSet)

end Sys2Proof.Machine
end

