-- ==== Sys2Proof/WellFormed.lean ====
section
/-! DEFINITION. Which instructions the document's typed interface can express (60_exceptions R195). -/

namespace Sys2Proof

/-- A pixel format is a member of `COLMOD_SET` (R30, R77, R195); every other operand is legal by its type. -/
def Instr.wellFormed (cfg : Config) : Instr → Bool
  | .colorMode format => Machine.legalFormat cfg format
  | .colmod format => Machine.legalFormat cfg format
  | .setColumnAddress .. | .setRowAddress .. | .setAddressWindow .. | .writeSinglePixel .. | .writePixelStream ..
  | .hardReset | .softReset | .sleepOut | .sleepIn | .memoryAccessControl _ | .displayOn | .displayOff
  | .inversionOn | .inversionOff | .partialDisplayMode | .normalMode | .idleOn | .idleOff | .initializePanel
  | .attach .. | .attachConfig .. | .release | .swreset | .slpin | .slpout | .ptlon | .noron | .invoff | .invon
  | .dispoff | .dispon | .caset .. | .raset .. | .ramwr _ | .madctl _ | .idmoff | .idmon => true

end Sys2Proof
end

