-- ==== Sys2Proof/Decode.lean ====
section
/-! DEFINITION. Decoding and encoding of requests (30_encoding R70 to R83). Decoding is total and rejects by name. -/

namespace Sys2Proof

open Sys2Proof.Machine

/-- The orientation operand of a byte, rejected if a bit is set that no field owns (R195). -/
def decodeOrientation (cfg : Config) (b : Byte) (k : Orientation → Instr) : Except Reject Instr :=
  match decodeMadctl cfg.madctlBit b with
  | some o => .ok (k o)
  | none => .error (.orientationBits b)

/-- The chip-select part of an attach request: present exactly when the flag says so (R82, R130). -/
def sidePins (side : Side) (hasCs : Bool) : PinBundle where
  dc := side.dc
  rst := side.rst
  cs := if hasCs then some side.cs else none

/-- The instruction of an operation and the operand fields of its request (R81, R82).
Operand fields the row does not use, `a[15:8]` of the one-byte operands and `a[15:1]` of attach are ignored (R81).
DEDUCED (safe, log 29). -/
def decodeOp (cfg : Config) (op : Op) (r : Req) : Except Reject Instr :=
  match op with
  | .setColumnAddress => .ok (.setColumnAddress r.a r.b)
  | .setRowAddress => .ok (.setRowAddress r.a r.b)
  | .setAddressWindow => .ok (.setAddressWindow r.a r.b r.c r.d)
  | .writeSinglePixel => .ok (.writeSinglePixel r.a r.b r.c)
  | .writePixelStream => .ok (.writePixelStream r.a r.b r.c r.d r.side.colors)
  | .hardReset => .ok .hardReset
  | .softReset => .ok .softReset
  | .sleepOut => .ok .sleepOut
  | .sleepIn => .ok .sleepIn
  | .colorMode => .ok (.colorMode (lo8 r.a))
  | .memoryAccessControl => decodeOrientation cfg (lo8 r.a) .memoryAccessControl
  | .displayOn => .ok .displayOn
  | .displayOff => .ok .displayOff
  | .inversionOn => .ok .inversionOn
  | .inversionOff => .ok .inversionOff
  | .partialDisplayMode => .ok .partialDisplayMode
  | .normalMode => .ok .normalMode
  | .idleOn => .ok .idleOn
  | .idleOff => .ok .idleOff
  | .initializePanel => .ok .initializePanel
  | .attach => .ok (.attach r.side.bus (sidePins r.side (r.a.getLsbD 0)))
  | .attachConfig => .ok (.attachConfig r.side.bus (sidePins r.side r.side.configHasCs))
  | .release => .ok .release

/-- The instruction a request word names (R81, R82); a selector that is not in `OPSEL` is rejected (R83). -/
def decodeReq (cfg : Config) (r : Req) : Except Reject Instr :=
  match opOfSelector cfg r.sel with
  | some op => decodeOp cfg op r
  | none => .error (.unknownSelector r.sel)

/-- The frame instruction of a command and its data bytes, in the command's format of R78
(W0 no byte, W1 one, W4 four, WS any number of two-byte pixels). -/
def decodeFrame (cfg : Config) (cmd : Cmd) (data : List Byte) : Except Reject Instr :=
  match cmd, data with
  | .swreset, [] => .ok .swreset
  | .slpin, [] => .ok .slpin
  | .slpout, [] => .ok .slpout
  | .ptlon, [] => .ok .ptlon
  | .noron, [] => .ok .noron
  | .invoff, [] => .ok .invoff
  | .invon, [] => .ok .invon
  | .dispoff, [] => .ok .dispoff
  | .dispon, [] => .ok .dispon
  | .idmoff, [] => .ok .idmoff
  | .idmon, [] => .ok .idmon
  | .caset, [sh, sl, eh, el] => .ok (.caset (word16 sh sl) (word16 eh el))
  | .raset, [sh, sl, eh, el] => .ok (.raset (word16 sh sl) (word16 eh el))
  | .madctl, [p] => decodeOrientation cfg p .madctl
  | .colmod, [p] => .ok (.colmod p)
  | .ramwr, bytes =>
    match pixelWords bytes with
    | some colors => .ok (.ramwr colors)
    | none => .error (.frameLength (opcode cfg .ramwr))
  | cmd, _ => .error (.frameLength (opcode cfg cmd))

/-- The instruction a request names, or why it names none (R82, R83, R79, R195). -/
def decode (cfg : Config) : Request → Except Reject Instr
  | .req r => decodeReq cfg r
  | .frame [] => .error .emptyFrame
  | .frame (op :: data) =>
    match cmdOfOpcode cfg op with
    | some cmd => decodeFrame cfg cmd data
    | none => .error (.unknownOpcode op)

/-- A request word with the given selector and operand fields, no side operand (R81). -/
def reqWord (sel : Byte) (a b c d : Word) : Request := .req { sel, a, b, c, d, side := {} }

/-- A byte operand in `a[7:0]` (R82). -/
def byteOperand (b : Byte) : Word := word16 0 b

/-- The side operands that hand over a bus and a pin bundle (R81). -/
def sideOf (bus : Handle) (pins : PinBundle) : Side :=
  { bus, dc := pins.dc, rst := pins.rst, cs := pins.cs.getD 0, configHasCs := pins.cs.isSome }

/-- A frame: the opcode byte and its data bytes (R70). -/
def frameOf (cfg : Config) (cmd : Cmd) (data : List Byte) : Request := .frame (opcode cfg cmd :: data)

/-- The request that names an instruction: its selector of R82 (`OPSEL`) with its operand fields, or its frame of R70 to R74. -/
def encode (cfg : Config) : Instr → Request
  | .setColumnAddress start last => reqWord (selector cfg .setColumnAddress) start last 0 0
  | .setRowAddress start last => reqWord (selector cfg .setRowAddress) start last 0 0
  | .setAddressWindow colStart rowStart colEnd rowEnd => reqWord (selector cfg .setAddressWindow) colStart rowStart colEnd rowEnd
  | .writeSinglePixel x y color => reqWord (selector cfg .writeSinglePixel) x y color 0
  | .writePixelStream colStart rowStart colEnd rowEnd colors =>
    .req { sel := selector cfg .writePixelStream, a := colStart, b := rowStart, c := colEnd, d := rowEnd, side := { colors } }
  | .hardReset => reqWord (selector cfg .hardReset) 0 0 0 0
  | .softReset => reqWord (selector cfg .softReset) 0 0 0 0
  | .sleepOut => reqWord (selector cfg .sleepOut) 0 0 0 0
  | .sleepIn => reqWord (selector cfg .sleepIn) 0 0 0 0
  | .colorMode format => reqWord (selector cfg .colorMode) (byteOperand format) 0 0 0
  | .memoryAccessControl o => reqWord (selector cfg .memoryAccessControl) (byteOperand (encodeMadctl cfg.madctlBit o)) 0 0 0
  | .displayOn => reqWord (selector cfg .displayOn) 0 0 0 0
  | .displayOff => reqWord (selector cfg .displayOff) 0 0 0 0
  | .inversionOn => reqWord (selector cfg .inversionOn) 0 0 0 0
  | .inversionOff => reqWord (selector cfg .inversionOff) 0 0 0 0
  | .partialDisplayMode => reqWord (selector cfg .partialDisplayMode) 0 0 0 0
  | .normalMode => reqWord (selector cfg .normalMode) 0 0 0 0
  | .idleOn => reqWord (selector cfg .idleOn) 0 0 0 0
  | .idleOff => reqWord (selector cfg .idleOff) 0 0 0 0
  | .initializePanel => reqWord (selector cfg .initializePanel) 0 0 0 0
  | .attach bus pins =>
    .req { sel := selector cfg .attach, a := if pins.cs.isSome then 1 else 0, b := 0, c := 0, d := 0, side := sideOf bus pins }
  | .attachConfig bus pins => .req { sel := selector cfg .attachConfig, a := 0, b := 0, c := 0, d := 0, side := sideOf bus pins }
  | .release => reqWord (selector cfg .release) 0 0 0 0
  | .swreset => frameOf cfg .swreset []
  | .slpin => frameOf cfg .slpin []
  | .slpout => frameOf cfg .slpout []
  | .ptlon => frameOf cfg .ptlon []
  | .noron => frameOf cfg .noron []
  | .invoff => frameOf cfg .invoff []
  | .invon => frameOf cfg .invon []
  | .dispoff => frameOf cfg .dispoff []
  | .dispon => frameOf cfg .dispon []
  | .caset start last => frameOf cfg .caset (windowBytes start last)
  | .raset start last => frameOf cfg .raset (windowBytes start last)
  | .ramwr colors => frameOf cfg .ramwr (pixelBytes colors)
  | .madctl o => frameOf cfg .madctl [encodeMadctl cfg.madctlBit o]
  | .idmoff => frameOf cfg .idmoff []
  | .idmon => frameOf cfg .idmon []
  | .colmod format => frameOf cfg .colmod [format]

/-- `REQ` as one 72-bit word (R81): `sel` in bits 71 to 64, then `a`, `b`, `c`, `d`. -/
def Req.toWord (r : Req) : BitVec 72 := r.sel ++ (r.a ++ (r.b ++ (r.c ++ r.d)))

/-- The fields of a 72-bit request word (R81), with the side operands presented beside it. -/
def Req.ofWord (w : BitVec 72) (side : Side) : Req where
  sel := w.extractLsb' 64 8
  a := w.extractLsb' 48 16
  b := w.extractLsb' 32 16
  c := w.extractLsb' 16 16
  d := w.extractLsb' 0 16
  side := side

/-- The data bytes of a command's frame when every operand is one of fixed length (R70 to R74). -/
def fixedDataBytes : Cmd → Nat
  | .caset | .raset => 4
  | .madctl | .colmod => 1
  | .swreset | .slpin | .slpout | .ptlon | .noron | .invoff | .invon | .dispoff | .dispon | .idmoff | .idmon | .ramwr => 0

/-- Byte `k` of an instruction whose bits are `w`, byte 0 the first. -/
def tableByte (w k : Nat) : Byte := BitVec.ofNat 8 (w >>> (8 * k))

/-- The request of a table word: byte 0 is `REQ[71:64]`, so the bytes after it are the operand fields from
the most significant down (R81); or byte 0 is the opcode and the bytes after it the parameters (R70).
The two spaces of the table share the byte values `0x01` and `0x10` to `0x13`. DESIGN CHOICE (safe, log 10): a word of 9 to 40
bits is a frame, one of more than 40 bits a request, and at 8 bits or fewer a byte that is a selector of
`OPSEL` is a request and any other a frame. -/
def tableRequest (cfg : Config) (nbits w : Nat) : Request :=
  let w := w % 2 ^ nbits
  let byte := tableByte w
  let isSelector := (opOfSelector cfg (byte 0)).isSome
  if 40 < nbits ∨ (nbits ≤ 8 ∧ isSelector) then
    .req { sel := byte 0, a := word16 (byte 1) (byte 2), b := word16 (byte 3) (byte 4), c := word16 (byte 5) (byte 6),
           d := word16 (byte 7) (byte 8), side := {} }
  else
    match cmdOfOpcode cfg (byte 0) with
    | some cmd => .frame (byte 0 :: (List.range (fixedDataBytes cmd)).map (fun k => byte (k + 1)))
    | none => .frame [byte 0]

/-- The instruction read from a word numbered as spec/opcode_table.json numbers it, under the default parameters. -/
def decodeTableWord (nbits w : Nat) : Option Instr :=
  match decode Config.default (tableRequest Config.default nbits w) with
  | .ok i => some i
  | .error _ => none

end Sys2Proof
end

