-- ==== Sys2Proof/Machine/State.lean ====
section
/-! DEFINITION. The state of the machine (10_state R20 to R38, 20_memory R50, R62), the outcomes of a step, and reset. -/

namespace Sys2Proof.Machine

/-- A value the spec calls `Unknown` until something gives it one (00_scope glossary, 93 U1: never a chosen value). -/
inductive Known (α : Type) where
  | unknown
  | known (v : α)
  deriving DecidableEq, Repr

/-- `S.life` (R21). -/
inductive Life where
  | detached
  | attached
  deriving DecidableEq, Repr

/-- The three output pins (R9). -/
inductive Pin where
  | dc
  | rst
  | cs
  deriving DecidableEq, Repr

/-- `S.pin[p]` (R23): the last level successfully driven on each pin. -/
structure Pins where
  dc : Known Level
  rst : Known Level
  cs : Known Level
  deriving DecidableEq, Repr

/-- A collaborator's opaque error value `e` (R9, R10), carried and never looked into. DESIGN CHOICE (safe, log 7). -/
abbrev ErrorValue := Nat

/-- The result `r` of a pin or bus call (R32). -/
inductive CallResult where
  | ok
  | fail (e : ErrorValue)
  deriving DecidableEq, Repr

/-- An event of the trace (R32). -/
inductive Event where
  | pin (p : Pin) (l : Level) (r : CallResult)
  | bus (bs : List Byte) (r : CallResult)
  | delay (ms : Nat)
  deriving DecidableEq, Repr

/-- How a collaborator answers a pin or bus call (R9, R10): `ok`, `fail e`, or it never returns (R218). -/
inductive Answer where
  | ok
  | fail (e : ErrorValue)
  | never
  deriving DecidableEq, Repr

/-- The four errors, flat and closed (60_exceptions R180). -/
inductive Err where
  | invalidColumnAddress
  | invalidRowAddress
  | pinError (e : ErrorValue)
  | busError (e : ErrorValue)
  deriving DecidableEq, Repr

/-- What an operation returns to the host (R12, R180): `Ok` or one error; and the resources a release hands back (R132). -/
structure Result where
  err : Option Err
  back : Option Resources
  deriving DecidableEq, Repr

/-- Ghost power state `G.power` (R34). -/
inductive Power where
  | unknown
  | poweredReset
  | registersDefault
  | awake
  | displaying
  | sleeping
  | unspecified
  deriving DecidableEq, Repr

/-- Ghost display region `G.region` when known (R35). -/
inductive Region where
  | normal
  | partialArea
  deriving DecidableEq, Repr

/-- A mode the controller has on or off when known (R31). -/
inductive OnOff where
  | on
  | off
  deriving DecidableEq, Repr

/-- The frame memory as bytes (20_memory R50, R62): a pixel is two bytes, high byte first; a byte not listed is `Unknown`. -/
abbrev Memory := List Host.Cell

/-- The ghost controller (R27 to R31, R34, R35, R62). No rule of the block reads it (R20). -/
structure Ghost where
  power : Power
  region : Known Region
  inversion : Known OnOff
  idle : Known OnOff
  xs : Known Word
  xe : Known Word
  ys : Known Word
  ye : Known Word
  madctl : Known Byte
  colmod : Known Byte
  wptr : Known (Word × Word)
  ramwrOpen : Known Bool
  ram : Memory
  deriving DecidableEq, Repr

/-- The whole state. The first six fields and the ghost are the spec's; the last five are the model's own:
the parameters it is given (log 1), the host's chain and the results (log 8), the collaborators' answers
(log 5) and the host's liberty while detached (log 17). -/
structure State where
  life : Life
  res : Option Resources
  pins : Pins
  busy : Bool
  trace : List Event
  ghost : Ghost
  cfg : Config
  /-- The host's requests still to come (R86). -/
  chain : List Request
  /-- The results returned so far, oldest first (R224). -/
  results : List Result
  /-- The collaborators' answers to the calls still to come; once the list is used up every call succeeds (log 5). -/
  env : List Answer
  /-- Whether the host may use the bus while the block is detached (R211). -/
  hostUsesBus : Bool
  deriving DecidableEq, Repr

/-- The machine stops. Closed; the block's own errors are results (R180), not faults. -/
inductive Fault where
  /-- Raised by `step` alone, when a collaborator call never returned (R218, U5 "stuck") and no request waits.
  DESIGN CHOICE (log 6). Safe: a hung block makes no further move. -/
  | hung
  deriving DecidableEq, Repr

/-- A request that has no step (60_exceptions R194, R195): no event, no result, the state as it was.
DESIGN CHOICE (log 31). All are safe: the spec gives such a request no effect. -/
inductive Refusal where
  /-- An instruction without a meaning, raised by `exec`'s arms. Safe. No arm uses it. -/
  | notModelled (mnemonic : String)
  /-- A request while the block is busy (R194, R219, D21), raised by `operation`. Safe. -/
  | busy
  /-- An operation that needs `Attached`, requested while `Detached` (R194), raised by `operation`. Safe. -/
  | notAttached
  /-- An attach operation requested while `Attached` (R194), raised by `operation`. Safe. -/
  | notDetached
  /-- A pixel-format byte outside `COLMOD_SET` (R195), raised by the two pixel-format instructions. Safe. -/
  | pixelFormat (format : Byte)
  /-- A request that names no instruction (R83, R195), raised by `step`. Safe. -/
  | illFormed (why : Reject)
  deriving DecidableEq, Repr

/-- The ghost controller of which nothing is known, in power state `p` (R37, R133, R134). -/
def Ghost.forget (p : Power) : Ghost where
  power := p
  region := .unknown
  inversion := .unknown
  idle := .unknown
  xs := .unknown
  xe := .unknown
  ys := .unknown
  ye := .unknown
  madctl := .unknown
  colmod := .unknown
  wptr := .unknown
  ramwrOpen := .unknown
  ram := []

/-- The reset state (R37, D16): the state before any attach. `G.ramwr_open` is false there as R37's table says, although D16 has every ghost
field `Unknown`: DESIGN CHOICE (unsafe, log 39).
DESIGN CHOICE (unsafe, logs 1, 5, 8, 17, 25): the values of the model's own fields and of the computed `has_cs`. -/
def State.reset : State where
  life := .detached
  res := none
  pins := { dc := .unknown, rst := .unknown, cs := .unknown }
  busy := false
  trace := []
  ghost := { Ghost.forget .unknown with ramwrOpen := .known false }
  cfg := Config.default
  chain := []
  results := []
  env := []
  hostUsesBus := true

end Sys2Proof.Machine
end

