-- ==== Sys2Proof/Machine/Ops.lean ====
section
/-! DEFINITION. The named operations over the frame memory, the pins, the trace and the collaborators
(00_scope R9 to R11), how an operation is cut short (60_exceptions R186), and how it is accepted and returns (R36, R194). -/

namespace Sys2Proof.Machine

/-! ## The frame memory -/

/-- One past the last byte address: two bytes for each of 65536 by 65536 pixels (20_memory R50). -/
def Memory.size : Nat := 2 * (65536 * 65536)

/-- The canonical form: addresses strictly rising and inside the address space. -/
abbrev Memory.wf (m : Memory) : Prop := (m.map Prod.fst).Pairwise (· < ·) ∧ ∀ c ∈ m, c.1 < Memory.size

/-- One byte; a byte not listed is `Unknown` (log 11). -/
def Memory.readByte : Memory → Nat → Known Byte
  | [], _ => .unknown
  | (k, v) :: m, a => if k = a then .known v else Memory.readByte m a

/-- Writes one byte, keeping the addresses rising. -/
def Memory.writeByte : Memory → Nat → Byte → Memory
  | [], a, b => [(a, b)]
  | (k, v) :: m, a, b =>
    if a < k then (a, b) :: (k, v) :: m else if a = k then (a, b) :: m else (k, v) :: Memory.writeByte m a b

/-- Makes one byte `Unknown`. -/
def Memory.forgetByte (m : Memory) (a : Nat) : Memory := m.filter (fun c => c.1 ≠ a)

/-- The address of the high byte of pixel `(col, row)`; the low byte follows it. DESIGN CHOICE (safe, log 11). -/
def pixelAddr (col row : Word) : Nat := 2 * (row.toNat * 65536 + col.toNat)

/-- `MemWrite((col, row), 2, v)` (00_scope R8, 20_memory R62). -/
def Memory.writePixel (m : Memory) (col row v : Word) : Memory :=
  (m.writeByte (pixelAddr col row) (hi8 v)).writeByte (pixelAddr col row + 1) (lo8 v)

/-- Makes one pixel `Unknown` (R189). -/
def Memory.forgetPixel (m : Memory) (col row : Word) : Memory :=
  (m.forgetByte (pixelAddr col row)).forgetByte (pixelAddr col row + 1)

/-- The pixel `(col, row)`, known when both its bytes are. -/
def Memory.readPixel (m : Memory) (col row : Word) : Known Word :=
  match m.readByte (pixelAddr col row), m.readByte (pixelAddr col row + 1) with
  | .known h, .known l => .known (word16 h l)
  | _, _ => .unknown

/-- Whether a coordinate lies on the panel (R58; U9: a cell outside it has no meaning). DESIGN CHOICE (unsafe, log 13). -/
def inPanel (cfg : Config) (col row : Word) : Bool := decide (col.toNat < cfg.panelW) && decide (row.toNat < cfg.panelH)

/-- What may be claimed of a pixel: outside the panel nothing (U9; log 13). -/
def State.pixel (s : State) (col row : Word) : Known Word :=
  if inPanel s.cfg col row then s.ghost.ram.readPixel col row else .unknown

/-! ## Pins, trace, ghost, resources -/

/-- The level of one pin. -/
def Pins.get (ps : Pins) (p : Pin) : Known Level :=
  match p with
  | .dc => ps.dc
  | .rst => ps.rst
  | .cs => ps.cs

/-- The shadow of one pin (R23). -/
def State.pin (s : State) (p : Pin) : Known Level := s.pins.get p

/-- `S.pin[p] <- v`. -/
def Pins.set (ps : Pins) (p : Pin) (v : Known Level) : Pins :=
  match p with
  | .dc => { ps with dc := v }
  | .rst => { ps with rst := v }
  | .cs => { ps with cs := v }

/-- `S.pin[p] <- v`. -/
def State.setPin (s : State) (p : Pin) (v : Known Level) : State := { s with pins := s.pins.set p v }

/-- Appends one event to `S.trace` (R32). -/
def State.log (s : State) (e : Event) : State := { s with trace := s.trace ++ [e] }

/-- Updates the ghost controller. -/
def State.onGhost (s : State) (f : Ghost → Ghost) : State := { s with ghost := f s.ghost }

/-- `S.has_cs` (R22), computed from the owned resources. DESIGN CHOICE (unsafe, log 25): false when nothing is owned. -/
def State.hasCs (s : State) : Bool :=
  match s.res with
  | some r => r.pins.cs.isSome
  | none => false

/-- The answer the next pin or bus call gets. -/
def State.answer (s : State) : Answer := s.env.headD .ok

/-- The state once that answer is taken. -/
def State.answered (s : State) : State := { s with env := s.env.tail }

/-! ## Runs: a part of an operation, and how it is cut short -/

/-- Why a part of an operation ends early: `raise` (R186), or a call that never returns (R218). -/
inductive Stop where
  | err (e : Err)
  | hang
  deriving DecidableEq, Repr

/-- How a part of an operation ends. -/
inductive Run where
  | done (s : State)
  | stopped (why : Stop) (s : State)
  deriving DecidableEq, Repr

/-- Statements in order (R14); none runs after one that is cut short (R186). -/
def Run.andThen (r : Run) (f : State → Run) : Run :=
  match r with
  | .done s => f s
  | .stopped why s => .stopped why s

/-- What a part that is cut short leaves in the ghost controller (R151, R189). -/
def Run.onStop (r : Run) (f : Ghost → Ghost) : Run :=
  match r with
  | .done s => .done s
  | .stopped why s => .stopped why (s.onGhost f)

/-- `raise E` (R8, R186): ends the operation with that error, nothing rolled back. -/
def raise (e : Err) (s : State) : Run := .stopped (.err e) s

/-! ## The capability primitives -/

/-- `PinSet(p, l)` (00_scope R9, 60_exceptions R184). -/
def pinSet (p : Pin) (l : Level) (s : State) : Run :=
  match s.answer with
  | .ok => .done ((s.answered.log (.pin p l .ok)).setPin p (.known l))
  | .fail e => raise (.pinError e) ((s.answered.log (.pin p l (.fail e))).setPin p .unknown)
  | .never => .stopped .hang (s.answered.setPin p .unknown)

/-- `BusWrite(bs)` (00_scope R10, 60_exceptions R185). -/
def busWrite (bs : List Byte) (s : State) : Run :=
  match s.answer with
  | .ok => .done (s.answered.log (.bus bs .ok))
  | .fail e => raise (.busError e) (s.answered.log (.bus bs (.fail e)))
  | .never => .stopped .hang s.answered

/-- `DelayMs(n)` (00_scope R11, D10): cannot fail and returns. PRESUMED (unsafe, log 22). -/
def delayMs (n : Nat) (s : State) : Run := .done (s.log (.delay n))

/-! ## Accepting an operation and returning its result -/

/-- The numeric code `RES[7:0]` of a result (30_encoding R81, 60_exceptions R181): 0 for `Ok`, else `ERRCODE`.
DESIGN CHOICE of the spec (log 30). -/
def Result.code (cfg : Config) (r : Result) : Byte :=
  match r.err with
  | none => 0
  | some .invalidColumnAddress => cfg.errCode.invalidColumnAddress
  | some .invalidRowAddress => cfg.errCode.invalidRowAddress
  | some (.pinError _) => cfg.errCode.pinError
  | some (.busError _) => cfg.errCode.busError

/-- The result goes to the host and the block is free again (R36, R186); on an error the chain ends (R86).
DESIGN CHOICE (safe, log 36). -/
def State.returns (s : State) (r : Result) : State :=
  { s with busy := false, results := s.results ++ [r], chain := if r.err.isSome then [] else s.chain }

/-- The end of an operation: `Ok`, the error it was cut short by, or no result at all (R186, R218; log 6).
`back` is what it hands back with `Ok`, `backOnErr` with an error. -/
def finish (back backOnErr : Option Resources) : Run → Host.Outcome State Fault Refusal
  | .done s => .next (s.returns { err := none, back := back })
  | .stopped (.err e) s => .next (s.returns { err := some e, back := backOnErr })
  | .stopped .hang s => .next s

/-- The block accepts an operation (R36): `S.busy` becomes true. -/
def State.accept (s : State) : State := { s with busy := true }

/-- Runs an operation that needs the life state `need`, refusing by name what has no step (R194). -/
def operation (need : Life) (back backOnErr : Option Resources) (body : State → Run) (s : State) :
    Host.Outcome State Fault Refusal :=
  if s.busy then .refused .busy
  else if s.life = need then finish back backOnErr (body s.accept)
  else
    match need with
    | .attached => .refused .notAttached
    | .detached => .refused .notDetached

/-- An operation on the attached handle that hands nothing back. -/
def handleOp (body : State → Run) (s : State) : Host.Outcome State Fault Refusal := operation .attached none none body s

end Sys2Proof.Machine
end

