-- ==== Sys2Proof/Machine/Controller.lean ====
section
/-! DEFINITION. The ghost controller's reading of what the block sends (20_memory R62, 10_state R27 to R35,
43_lifecycle_power R151, 60_exceptions R189). -/

namespace Sys2Proof.Machine

/-- Whether a pixel-format byte selects 16 bits per pixel on the host interface (R62: `0x55` or `0x65`). -/
def sixteenBit (c : Known Byte) : Bool :=
  match c with
  | .known b => decide (b = 0x55#8 ∨ b = 0x65#8)
  | .unknown => false

/-- The power state after a complete `SWRESET` (R34, R134). -/
def Power.afterSoftReset : Power → Power
  | .poweredReset => .registersDefault
  | .unknown | .registersDefault | .awake | .displaying | .sleeping | .unspecified => .unspecified

/-- The power state after a complete `SLPOUT` (R34, R135). -/
def Power.afterSleepOut : Power → Power
  | .registersDefault | .sleeping => .awake
  | .unknown | .poweredReset | .awake | .displaying | .unspecified => .unspecified

/-- The power state after a complete `SLPIN` (R34, R136). -/
def Power.afterSleepIn : Power → Power
  | .awake | .displaying => .sleeping
  | .unknown | .poweredReset | .registersDefault | .sleeping | .unspecified => .unspecified

/-- The power state after a complete `DISPON` (R34, R139). -/
def Power.afterDisplayOn : Power → Power
  | .awake | .displaying => .displaying
  | .unknown | .poweredReset | .registersDefault | .sleeping | .unspecified => .unspecified

/-- Where `RAMWR` starts the fill: the window's start, if all four window registers are known (R62, R215). -/
def Ghost.windowStart (g : Ghost) : Known (Word × Word) :=
  match g.xs, g.xe, g.ys, g.ye with
  | .known xs, .known _, .known ys, .known _ => .known (xs, ys)
  | _, _, _, _ => .unknown

/-- The position after `(col, row)`: row-major inside the window, `Unknown` past its last cell (R62, D26). -/
def Ghost.advance (g : Ghost) (col row : Word) : Known (Word × Word) :=
  match g.xs, g.xe, g.ye with
  | .known xs, .known xe, .known ye =>
    if col < xe then .known (col + 1, row) else if row < ye then .known (xs, row + 1) else .unknown
  | _, _, _ => .unknown

/-- Whether a command's opcode byte writes the stream flag (R62). R62 says every one does; R152 and the ruling D15 (d) say sleep in and sleep
out change `G.power` and nothing else, and the ruling is followed: DESIGN CHOICE (unsafe, log 38). -/
def writesStreamFlag (cmd : Cmd) : Bool :=
  match cmd with
  | .slpin | .slpout => false
  | .swreset | .ptlon | .noron | .invoff | .invon | .dispoff | .dispon | .caset | .raset | .ramwr
  | .madctl | .idmoff | .idmon | .colmod => true

/-- An opcode byte arrives: it ends the stream of the command before (R62); sleep in and sleep out leave the flag (log 38). `RAMWR` opens
the next stream when its frame is complete. -/
def Ghost.opcodeReceived (cmd : Cmd) (g : Ghost) : Ghost :=
  match cmd with
  | .ramwr | .slpin | .slpout => g
  | .swreset | .ptlon | .noron | .invoff | .invon | .dispoff | .dispon | .caset | .raset
  | .madctl | .idmoff | .idmon | .colmod => { g with ramwrOpen := .known false }

/-- A frame arrives whole, with its parameter bytes (R62, R34, R35, R31; R151: on completion of the frame). Configuration commands keep any
power state: DEDUCED (safe, log 19). Sleep changes the power state and nothing else (R152, D15 (d)): PRESUMED
(unsafe, log 20). Every power state takes frames in: DESIGN CHOICE (unsafe,
log 21). `SWRESET` forgets the stream flag: DEDUCED (safe, log 32). A wrong parameter count: DESIGN CHOICE (safe, log 33). -/
def Ghost.frameReceived (cmd : Cmd) (params : List Byte) (g : Ghost) : Ghost :=
  match cmd with
  | .swreset => Ghost.forget g.power.afterSoftReset
  | .slpin => { g with power := g.power.afterSleepIn }
  | .slpout => { g with power := g.power.afterSleepOut }
  | .ptlon => { g with region := .known .partialArea }
  | .noron => { g with region := .known .normal }
  | .invoff => { g with inversion := .known .off }
  | .invon => { g with inversion := .known .on }
  | .dispoff => { g with power := .unspecified }
  | .dispon => { g with power := g.power.afterDisplayOn }
  | .caset =>
    match params with
    | [sh, sl, eh, el] => { g with xs := .known (word16 sh sl), xe := .known (word16 eh el) }
    | _ => { g with xs := .unknown, xe := .unknown }
  | .raset =>
    match params with
    | [sh, sl, eh, el] => { g with ys := .known (word16 sh sl), ye := .known (word16 eh el) }
    | _ => { g with ys := .unknown, ye := .unknown }
  | .ramwr => { g with ramwrOpen := .known true, wptr := g.windowStart }
  | .madctl =>
    match params with
    | [p] => { g with madctl := .known p }
    | _ => { g with madctl := .unknown }
  | .idmoff => { g with idle := .known .off }
  | .idmon => { g with idle := .known .on }
  | .colmod =>
    match params with
    | [p] => { g with colmod := .known p }
    | _ => { g with colmod := .unknown }

/-- A frame is cut after its opcode arrived: what it would have written is `Unknown`, and the power state
of a power command `Unspecified` (R151, R189, R104). -/
def Ghost.frameCut (cmd : Cmd) (g : Ghost) : Ghost :=
  match cmd with
  | .swreset => Ghost.forget .unspecified
  | .slpin | .slpout | .dispoff | .dispon => { g with power := .unspecified }
  | .ptlon | .noron => { g with region := .unknown }
  | .invoff | .invon => { g with inversion := .unknown }
  | .caset => { g with xs := .unknown, xe := .unknown }
  | .raset => { g with ys := .unknown, ye := .unknown }
  | .ramwr => { g with ramwrOpen := .unknown, wptr := .unknown }
  | .madctl => { g with madctl := .unknown }
  | .idmoff | .idmon => { g with idle := .unknown }
  | .colmod => { g with colmod := .unknown }

/-- The opcode byte may or may not have arrived (R104, R151): what the frame would have written is
`Unknown`, the stream flag among it if the opcode byte writes it. DEDUCED (safe, log 14). -/
def Ghost.opcodeInDoubt (cmd : Cmd) (g : Ghost) : Ghost :=
  if writesStreamFlag cmd then { g.frameCut cmd with ramwrOpen := .unknown } else g.frameCut cmd

/-- Data bytes whose place is not known: any cell may hit (D26, R62), so nothing is known of the frame memory.
DESIGN CHOICE (safe, log 12). -/
def Ghost.forgetRam (g : Ghost) : Ghost := { g with ram := [], wptr := .unknown }

/-- A pixel data phase arrives whole (R62). While a stream is open in 16-bit format its two bytes are a
pixel at the fill position; at an unknown position, or in another format, they may be anywhere. -/
def Ghost.pixelReceived (bytes : List Byte) (g : Ghost) : Ghost :=
  match g.ramwrOpen, g.wptr, bytes with
  | .known false, _, _ => g
  | .known true, .known (col, row), [h, l] =>
    if sixteenBit g.colmod then
      { g with ram := g.ram.writePixel col row (word16 h l), wptr := g.advance col row }
    else g.forgetRam
  | _, _, _ => g.forgetRam

/-- The bus write of a pixel's two bytes fails: the pixel being written is `Unknown` and so is the position (R124, R189). -/
def Ghost.pixelInDoubt (g : Ghost) : Ghost :=
  match g.ramwrOpen, g.wptr with
  | .known false, _ => g
  | .known true, .known (col, row) =>
    if sixteenBit g.colmod then { g with ram := g.ram.forgetPixel col row, wptr := .unknown } else g.forgetRam
  | _, _ => g.forgetRam

/-- The controller's addressing state after a failed pixel write: undefined, so `Unknown` (R124, R189, U1, U2). -/
def Ghost.addressingInDoubt (g : Ghost) : Ghost :=
  { g with xs := .unknown, xe := .unknown, ys := .unknown, ye := .unknown, wptr := .unknown, ramwrOpen := .unknown }

end Sys2Proof.Machine
end

