-- ==== Sys2Proof/Machine/Framer.lean ====
section
/-! DEFINITION. The command/data framer (40_framer R100 to R104). -/

namespace Sys2Proof.Machine

/-- Whether a parameter list makes a data phase (R100 corner cases 1 and 2, D7). -/
def hasDataPhase (cfg : Config) (params : Option (List Byte)) : Bool :=
  match params with
  | none => false
  | some bytes => !bytes.isEmpty || cfg.emptyParamsDataPhase

/-- The command phase: `DC` to the command level, then the opcode byte in one bus call (R100). -/
def commandPhase (cmd : Cmd) (s : State) : Run :=
  (pinSet .dc s.cfg.dcCmdLevel s).andThen fun s1 =>
  ((busWrite [opcode s1.cfg cmd] s1).onStop (Ghost.opcodeInDoubt cmd)).andThen fun s2 =>
  .done (s2.onGhost (Ghost.opcodeReceived cmd))

/-- A data phase: `DC` to the data level, then all the bytes in one bus call (R100, R101). -/
def dataPhase (bytes : List Byte) (s : State) : Run :=
  (pinSet .dc (dcDataLevel s.cfg) s).andThen (busWrite bytes)

/-- `send_command(cmd, params)` (R100). The ghost changes when the frame's last bus call returns `ok` (R151). -/
def sendCommand (cmd : Cmd) (params : Option (List Byte)) (s : State) : Run :=
  (commandPhase cmd s).andThen fun s1 =>
  let bytes := params.getD []
  let sent := if hasDataPhase s1.cfg params then (dataPhase bytes s1).onStop (Ghost.frameCut cmd) else .done s1
  sent.andThen fun s2 => .done (s2.onGhost (Ghost.frameReceived cmd bytes))

/-- `send_data(bytes)` (R101), the data phase of one pixel. A failed pin call sends nothing of the
pixel, a failed bus call leaves it in doubt (R124). DEDUCED (safe, log 16). -/
def sendData (bytes : List Byte) (s : State) : Run :=
  (pinSet .dc (dcDataLevel s.cfg) s).andThen fun s1 =>
  ((busWrite bytes s1).onStop Ghost.pixelInDoubt).andThen fun s2 =>
  .done (s2.onGhost (Ghost.pixelReceived bytes))

end Sys2Proof.Machine
end

