-- ==== Sys2Proof/Machine/Addressing.lean ====
section
/-! DEFINITION. The address-window operations (41_addressing R110 to R113). -/

namespace Sys2Proof.Machine

/-- `set_column_address(start, end)` (R110, R182). -/
def setColumnAddress (start last : Word) (s : State) : Run :=
  if startAfterEnd start last then raise .invalidColumnAddress s
  else sendCommand .caset (some (windowBytes start last)) s

/-- `set_row_address(start, end)` (R111, R183). -/
def setRowAddress (start last : Word) (s : State) : Run :=
  if startAfterEnd start last then raise .invalidRowAddress s
  else sendCommand .raset (some (windowBytes start last)) s

/-- `set_address_window`: column leg, then row leg (R112). -/
def setAddressWindow (colStart rowStart colEnd rowEnd : Word) (s : State) : Run :=
  (setColumnAddress colStart colEnd s).andThen (setRowAddress rowStart rowEnd)

/-- The instruction set_column_address (R110). -/
def execSetColumnAddress (start last : Word) (s : State) : Host.Outcome State Fault Refusal :=
  handleOp (setColumnAddress start last) s

/-- The instruction set_row_address (R111). -/
def execSetRowAddress (start last : Word) (s : State) : Host.Outcome State Fault Refusal :=
  handleOp (setRowAddress start last) s

/-- The instruction set_address_window (R112). -/
def execSetAddressWindow (colStart rowStart colEnd rowEnd : Word) (s : State) : Host.Outcome State Fault Refusal :=
  handleOp (setAddressWindow colStart rowStart colEnd rowEnd) s

end Sys2Proof.Machine
end

