-- ==== Sys2Proof/Machine/PixelWrite.lean ====
section
/-! DEFINITION. The pixel writes (42_pixel_write R120 to R124). -/

namespace Sys2Proof.Machine

/-- Whether a pixel write that is cut short may have sent a byte (R189 "after the first byte was sent",
R189 for an invalid row). Its first call is the pin set of the first frame: if that one fails nothing has
been sent, otherwise the bus was written to. DEDUCED (safe, log 15). -/
def mayHaveSent (start : State) (why : Stop) : Bool :=
  match why with
  | .err .invalidColumnAddress | .err .invalidRowAddress => false
  | .err (.pinError _) | .err (.busError _) | .hang => decide (start.answer = .ok)

/-- What a failed pixel write leaves of the controller's addressing state (R124, R189). -/
def Run.addressingLost (r : Run) (start : State) : Run :=
  match r with
  | .done s => .done s
  | .stopped why s => .stopped why (if mayHaveSent start why then s.onGhost Ghost.addressingInDoubt else s)

/-- The loop over the colour source: one data phase per colour, the next pulled only after the last was sent (R121, R122). -/
def sendPixels : List Word → State → Run
  | [], s => .done s
  | color :: rest, s => (sendData (be16 color) s).andThen (sendPixels rest)

/-- `write_single_pixel(x, y, color)` (R120). -/
def writeSinglePixel (x y color : Word) (s : State) : Run :=
  Run.addressingLost
    (((setAddressWindow x y x y s).andThen (sendCommand .ramwr none)).andThen (sendData (be16 color))) s

/-- `write_pixel_stream` (R121): empty parameters for `RAMWR`, no length check (R123). -/
def writePixelStream (colStart rowStart colEnd rowEnd : Word) (colors : List Word) (s : State) : Run :=
  Run.addressingLost
    (((setAddressWindow colStart rowStart colEnd rowEnd s).andThen (sendCommand .ramwr (some []))).andThen
      (sendPixels colors)) s

/-- The instruction write_single_pixel (R120). -/
def execWriteSinglePixel (x y color : Word) (s : State) : Host.Outcome State Fault Refusal :=
  handleOp (writeSinglePixel x y color) s

/-- The instruction write_pixel_stream (R121). -/
def execWritePixelStream (colStart rowStart colEnd rowEnd : Word) (colors : List Word) (s : State) :
    Host.Outcome State Fault Refusal :=
  handleOp (writePixelStream colStart rowStart colEnd rowEnd colors) s

end Sys2Proof.Machine
end

