-- ==== Sys2Proof/Machine/Power.lean ====
section
/-! DEFINITION. Resets, sleep, the two configuration registers and the mode commands (43_lifecycle_power R133 to R148). -/

namespace Sys2Proof.Machine

/-- The pulse on the reset pin (R133): high, low, high, with the delay after each of the first two. -/
def resetPulse (s : State) : Run :=
  (pinSet .rst .high s).andThen fun s1 =>
  (delayMs s1.cfg.tRstHigh1 s1).andThen fun s2 =>
  (pinSet .rst .low s2).andThen fun s3 =>
  (delayMs s3.cfg.tRstLow s3).andThen (pinSet .rst .high)

/-- `hard_reset()` (R133): the ghost effect is that of the completed pulse; a failed pin call leaves it open. -/
def hardReset (s : State) : Run :=
  ((resetPulse s).onStop fun _ => Ghost.forget .unspecified).andThen fun s1 =>
  delayMs s1.cfg.tRstHigh2 (s1.onGhost fun _ => Ghost.forget .poweredReset)

/-- `soft_reset()` (R134). -/
def softReset (s : State) : Run := (sendCommand .swreset none s).andThen fun s1 => delayMs s1.cfg.tSwreset s1

/-- `sleep_out()` (R135). -/
def sleepOut (s : State) : Run := (sendCommand .slpout none s).andThen fun s1 => delayMs s1.cfg.tSlpout s1

/-- `sleep_in()` (R136). -/
def sleepIn (s : State) : Run := (sendCommand .slpin none s).andThen fun s1 => delayMs s1.cfg.tSlpin s1

/-- `color_mode(format)` (R137), for a legal format. -/
def colorMode (format : Byte) (s : State) : Run :=
  (sendCommand .colmod (some [format]) s).andThen fun s1 => delayMs s1.cfg.tColmod s1

/-- The orientation byte in its frame (R138). -/
def sendOrientation (byte : Byte) (s : State) : Run := sendCommand .madctl (some [byte]) s

/-- `memory_access_control(config)` (R138). -/
def memoryAccessControl (config : Orientation) (s : State) : Run := sendOrientation (encodeMadctl s.cfg.madctlBit config) s

/-- The common form of the parameterless mode commands (R148). -/
def modeCommand (cmd : Cmd) (s : State) : Run := sendCommand cmd none s

/-- An operation on a pixel format, refused when the byte is outside `COLMOD_SET` (R137, R195). -/
def formatOp (format : Byte) (body : State → Run) (s : State) : Host.Outcome State Fault Refusal :=
  if legalFormat s.cfg format then handleOp body s else .refused (.pixelFormat format)

/-- The instruction hard_reset (R133). -/
def execHardReset (s : State) : Host.Outcome State Fault Refusal := handleOp hardReset s
/-- The instruction soft_reset (R134). -/
def execSoftReset (s : State) : Host.Outcome State Fault Refusal := handleOp softReset s
/-- The instruction sleep_out (R135). -/
def execSleepOut (s : State) : Host.Outcome State Fault Refusal := handleOp sleepOut s
/-- The instruction sleep_in (R136). -/
def execSleepIn (s : State) : Host.Outcome State Fault Refusal := handleOp sleepIn s
/-- The instruction color_mode (R137). -/
def execColorMode (format : Byte) (s : State) : Host.Outcome State Fault Refusal := formatOp format (colorMode format) s
/-- The instruction memory_access_control (R138). -/
def execMemoryAccessControl (config : Orientation) (s : State) : Host.Outcome State Fault Refusal :=
  handleOp (memoryAccessControl config) s
/-- The instruction display_on (R139). -/
def execDisplayOn (s : State) : Host.Outcome State Fault Refusal := handleOp (modeCommand .dispon) s
/-- The instruction display_off (R140). -/
def execDisplayOff (s : State) : Host.Outcome State Fault Refusal := handleOp (modeCommand .dispoff) s
/-- The instruction inversion_on (R141). -/
def execInversionOn (s : State) : Host.Outcome State Fault Refusal := handleOp (modeCommand .invon) s
/-- The instruction inversion_off (R142). -/
def execInversionOff (s : State) : Host.Outcome State Fault Refusal := handleOp (modeCommand .invoff) s
/-- The instruction partial_display_mode (R143). -/
def execPartialDisplayMode (s : State) : Host.Outcome State Fault Refusal := handleOp (modeCommand .ptlon) s
/-- The instruction normal_mode (R144). -/
def execNormalMode (s : State) : Host.Outcome State Fault Refusal := handleOp (modeCommand .noron) s
/-- The instruction idle_on (R145). -/
def execIdleOn (s : State) : Host.Outcome State Fault Refusal := handleOp (modeCommand .idmon) s
/-- The instruction idle_off (R146). -/
def execIdleOff (s : State) : Host.Outcome State Fault Refusal := handleOp (modeCommand .idmoff) s

end Sys2Proof.Machine
end

