-- ==== Sys2Proof/Machine/Frames.lean ====
section
/-! DEFINITION. The wire frames of the Command Table (30_encoding R70 to R74, R78), each as the framer sends it
(40_framer R100, R101). The framer checks no operand (R100 corner case 5). DESIGN CHOICE (safe, log 9). -/

namespace Sys2Proof.Machine

/-- A pixel stream `WS` (R74): the `RAMWR` frame, then one data phase per pixel, failing as a pixel write does (R124). -/
def pixelStreamFrame (colors : List Word) (s : State) : Run :=
  Run.addressingLost ((sendCommand .ramwr none s).andThen (sendPixels colors)) s

/-- The frame SWRESET, format W0. -/
def execSwreset (s : State) : Host.Outcome State Fault Refusal := handleOp (sendCommand .swreset none) s
/-- The frame SLPIN, format W0. -/
def execSlpin (s : State) : Host.Outcome State Fault Refusal := handleOp (sendCommand .slpin none) s
/-- The frame SLPOUT, format W0. -/
def execSlpout (s : State) : Host.Outcome State Fault Refusal := handleOp (sendCommand .slpout none) s
/-- The frame PTLON, format W0. -/
def execPtlon (s : State) : Host.Outcome State Fault Refusal := handleOp (sendCommand .ptlon none) s
/-- The frame NORON, format W0. -/
def execNoron (s : State) : Host.Outcome State Fault Refusal := handleOp (sendCommand .noron none) s
/-- The frame INVOFF, format W0. -/
def execInvoff (s : State) : Host.Outcome State Fault Refusal := handleOp (sendCommand .invoff none) s
/-- The frame INVON, format W0. -/
def execInvon (s : State) : Host.Outcome State Fault Refusal := handleOp (sendCommand .invon none) s
/-- The frame DISPOFF, format W0. -/
def execDispoff (s : State) : Host.Outcome State Fault Refusal := handleOp (sendCommand .dispoff none) s
/-- The frame DISPON, format W0. -/
def execDispon (s : State) : Host.Outcome State Fault Refusal := handleOp (sendCommand .dispon none) s
/-- The frame CASET, format W4. -/
def execCaset (start last : Word) (s : State) : Host.Outcome State Fault Refusal :=
  handleOp (sendCommand .caset (some (windowBytes start last))) s
/-- The frame RASET, format W4. -/
def execRaset (start last : Word) (s : State) : Host.Outcome State Fault Refusal :=
  handleOp (sendCommand .raset (some (windowBytes start last))) s
/-- The frame RAMWR with its pixels, format WS. -/
def execRamwr (colors : List Word) (s : State) : Host.Outcome State Fault Refusal := handleOp (pixelStreamFrame colors) s
/-- The frame MADCTL, format W1. -/
def execMadctl (config : Orientation) (s : State) : Host.Outcome State Fault Refusal :=
  handleOp (sendCommand .madctl (some [encodeMadctl s.cfg.madctlBit config])) s
/-- The frame IDMOFF, format W0. -/
def execIdmoff (s : State) : Host.Outcome State Fault Refusal := handleOp (sendCommand .idmoff none) s
/-- The frame IDMON, format W0. -/
def execIdmon (s : State) : Host.Outcome State Fault Refusal := handleOp (sendCommand .idmon none) s
/-- The frame COLMOD, format W1; only a byte of `COLMOD_SET` is ever sent (R79). -/
def execColmod (format : Byte) (s : State) : Host.Outcome State Fault Refusal :=
  formatOp format (sendCommand .colmod (some [format])) s

end Sys2Proof.Machine
end

