-- ==== Sys2Proof/Machine/Lifecycle.lean ====
section
/-! DEFINITION. The handle's lifecycle (43_lifecycle_power R130 to R132) and the bring-up sequence (R147). -/

namespace Sys2Proof.Machine

/-- The fields attach writes before its pin call (R130): the resources are owned, every pin shadow is `Unknown`. -/
def State.own (s : State) (res : Resources) : State :=
  { s with res := some res, pins := { dc := .unknown, rst := .unknown, cs := .unknown }, life := .attached }

/-- `attach(bus, cs_or_none, dc, rst)` (R130). -/
def attach (res : Resources) (s : State) : Run :=
  let s1 := s.own res
  if s1.hasCs && s1.cfg.csLowOnAttach then pinSet .cs .low s1 else .done s1

/-- The fields release writes before its pin call (R132): the handle is consumed whatever follows. What is
known of the controller is dropped if the host may use the bus from here on (R211; log 17). -/
def State.disown (s : State) : State :=
  { s with life := .detached, res := none, ghost := if s.hostUsesBus then Ghost.forget .unknown else s.ghost }

/-- `release()` (R132). -/
def release (s : State) : Run := if s.hasCs then pinSet .cs .high s.disown else .done s.disown

/-- `initialize()` (R147): nine operations in order, cut short by the first error.
`memory_access_control` is called with the orientation `INIT_MADCTL` encodes, so it sends that byte. -/
def initializePanel (s : State) : Run :=
  (hardReset s).andThen fun s1 =>
  (softReset s1).andThen fun s2 =>
  (sleepOut s2).andThen fun s3 =>
  (colorMode s3.cfg.initColmod s3).andThen fun s4 =>
  (sendOrientation s4.cfg.initMadctl s4).andThen fun s5 =>
  (setAddressWindow 0 0 s5.cfg.initColEnd s5.cfg.initRowEnd s5).andThen fun s6 =>
  (modeCommand .invon s6).andThen fun s7 =>
  (modeCommand .noron s7).andThen (modeCommand .dispon)

/-- The instruction attach (R130). -/
def execAttach (bus : Handle) (pins : PinBundle) (s : State) : Host.Outcome State Fault Refusal :=
  operation .detached none none (attach { bus, pins }) s

/-- The instruction attach_config (R131): attach with the pins of a detached configuration (D27). -/
def execAttachConfig (bus : Handle) (config : PinBundle) (s : State) : Host.Outcome State Fault Refusal :=
  operation .detached none none (attach { bus, pins := config }) s

/-- The instruction release (R132). Whether a release that fails hands the resources back is open (D17). -/
def execRelease (s : State) : Host.Outcome State Fault Refusal :=
  operation .attached s.res (if Config.releaseReturnsOnError then s.res else none) release s

/-- The instruction initialize (R147). -/
def execInitializePanel (s : State) : Host.Outcome State Fault Refusal := handleOp initializePanel s

end Sys2Proof.Machine
end

