-- ==== Sys2Proof/Machine/Dispatch.lean ====
section
/-! DEFINITION. One arm per instruction. -/

namespace Sys2Proof.Machine

/-- The meaning of each instruction. -/
def exec (i : Instr) (s : State) : Host.Outcome State Fault Refusal :=
  match i with
  | .setColumnAddress start last => Sys2Proof.Machine.execSetColumnAddress start last s
  | .setRowAddress start last => Sys2Proof.Machine.execSetRowAddress start last s
  | .setAddressWindow colStart rowStart colEnd rowEnd => Sys2Proof.Machine.execSetAddressWindow colStart rowStart colEnd rowEnd s
  | .writeSinglePixel x y color => Sys2Proof.Machine.execWriteSinglePixel x y color s
  | .writePixelStream colStart rowStart colEnd rowEnd colors => Sys2Proof.Machine.execWritePixelStream colStart rowStart colEnd rowEnd colors s
  | .hardReset => Sys2Proof.Machine.execHardReset s
  | .softReset => Sys2Proof.Machine.execSoftReset s
  | .sleepOut => Sys2Proof.Machine.execSleepOut s
  | .sleepIn => Sys2Proof.Machine.execSleepIn s
  | .colorMode format => Sys2Proof.Machine.execColorMode format s
  | .memoryAccessControl config => Sys2Proof.Machine.execMemoryAccessControl config s
  | .displayOn => Sys2Proof.Machine.execDisplayOn s
  | .displayOff => Sys2Proof.Machine.execDisplayOff s
  | .inversionOn => Sys2Proof.Machine.execInversionOn s
  | .inversionOff => Sys2Proof.Machine.execInversionOff s
  | .partialDisplayMode => Sys2Proof.Machine.execPartialDisplayMode s
  | .normalMode => Sys2Proof.Machine.execNormalMode s
  | .idleOn => Sys2Proof.Machine.execIdleOn s
  | .idleOff => Sys2Proof.Machine.execIdleOff s
  | .initializePanel => Sys2Proof.Machine.execInitializePanel s
  | .attach bus pins => Sys2Proof.Machine.execAttach bus pins s
  | .attachConfig bus config => Sys2Proof.Machine.execAttachConfig bus config s
  | .release => Sys2Proof.Machine.execRelease s
  | .swreset => Sys2Proof.Machine.execSwreset s
  | .slpin => Sys2Proof.Machine.execSlpin s
  | .slpout => Sys2Proof.Machine.execSlpout s
  | .ptlon => Sys2Proof.Machine.execPtlon s
  | .noron => Sys2Proof.Machine.execNoron s
  | .invoff => Sys2Proof.Machine.execInvoff s
  | .invon => Sys2Proof.Machine.execInvon s
  | .dispoff => Sys2Proof.Machine.execDispoff s
  | .dispon => Sys2Proof.Machine.execDispon s
  | .caset start last => Sys2Proof.Machine.execCaset start last s
  | .raset start last => Sys2Proof.Machine.execRaset start last s
  | .ramwr colors => Sys2Proof.Machine.execRamwr colors s
  | .madctl config => Sys2Proof.Machine.execMadctl config s
  | .idmoff => Sys2Proof.Machine.execIdmoff s
  | .idmon => Sys2Proof.Machine.execIdmon s
  | .colmod format => Sys2Proof.Machine.execColmod format s

end Sys2Proof.Machine
end

