-- ==== Sys2Proof/Machine/Fetch.lean ====
section
/-! DEFINITION. How the next instruction comes to the block: the host's next request (30_encoding R81, R86; 20_memory R60). -/

namespace Sys2Proof.Machine

/-- The host's next request is taken off the chain. -/
def State.popRequest (s : State) : State := { s with chain := s.chain.tail }

/-- The life state an instruction needs (60_exceptions R194). -/
def lifeNeeded : Instr → Life
  | .attach .. | .attachConfig .. => .detached
  | .setColumnAddress .. | .setRowAddress .. | .setAddressWindow .. | .writeSinglePixel .. | .writePixelStream ..
  | .hardReset | .softReset | .sleepOut | .sleepIn | .colorMode _ | .memoryAccessControl _ | .displayOn | .displayOff
  | .inversionOn | .inversionOff | .partialDisplayMode | .normalMode | .idleOn | .idleOff | .initializePanel | .release
  | .swreset | .slpin | .slpout | .ptlon | .noron | .invoff | .invon | .dispoff | .dispon | .caset .. | .raset ..
  | .ramwr _ | .madctl _ | .idmoff | .idmon | .colmod _ => .attached

/-- The life state a request needs; one that names no instruction needs none. -/
def requestLife (cfg : Config) (r : Request) : Option Life :=
  match decode cfg r with
  | .ok i => some (lifeNeeded i)
  | .error _ => none

/-- The state in which a request that needs `need` is accepted (R194): not busy, and attached or detached
as it needs, the resources of a state that must be attached first being the host's tokens 0 without chip-select. -/
def State.readyFor (s : State) (need : Option Life) : State :=
  match need with
  | none => s
  | some .detached => { s with busy := false, life := .detached, res := none }
  | some .attached =>
    { s with busy := false, life := .attached,
             res := if s.life = .attached then s.res
                    else some { bus := 0, pins := { dc := 0, rst := 0, cs := none } } }

/-- The host presents a request next, in the life state it needs (log 8). -/
def State.present (s : State) (r : Request) : State :=
  { s.readyFor (requestLife s.cfg r) with chain := r :: s.chain }

end Sys2Proof.Machine
end

