-- ==== Sys2Proof/Machine/Step.lean ====
section
/-! DEFINITION. One step: the host's next request, decoded and run (30_encoding R86). -/

namespace Sys2Proof.Machine

/-- One whole operation of the host's chain (R86, R36). With no request the block waits for the host
(43_lifecycle_power R152), unless it is stuck in a call that never returned (R218). A request that names
no instruction is refused by name (R83, R195). DESIGN CHOICE (safe, log 8). -/
def step (s : State) : Host.Outcome State Fault Refusal :=
  match s.chain with
  | [] => if s.busy then .fault .hung else .next s
  | r :: _ =>
    match decode s.cfg r with
    | .ok i => exec i s.popRequest
    | .error why => .refused (.illFormed why)

/-- The state in which the very next step runs the table word's instruction (log 8): the host presents
its request next, in the life state R194 asks of it. -/
def State.withFetchWord (s : State) (nbits w : Nat) : State := s.present (tableRequest s.cfg nbits w)

end Sys2Proof.Machine
end

