-- ==== Sys2Proof/Machine/Adapter.lean ====
section
/-! DEFINITION. The drawing surface adapter's mapping onto the block's operations (44_surface_adapter R170 to R173).
It is software above the block; no meaning of an instruction depends on this file.
DESIGN CHOICE (safe, log 34): the form of a draw request. -/

namespace Sys2Proof.Machine

/-- A draw request as the adapter sees it: one pixel; a filled rectangle's bounding box, ends inclusive, with the
colours its iterator produces; or a primitive without a direct path, as its pixels (R171). -/
inductive Draw where
  | pixel (x y color : Word)
  | filled (colStart rowStart colEnd rowEnd : Word) (colors : List Word)
  | perPixel (pixels : List (Word × Word × Word))
  deriving DecidableEq, Repr

/-- The operations a draw request becomes (R171). -/
def Draw.operations : Draw → List Instr
  | .pixel x y color => [.writeSinglePixel x y color]
  | .filled colStart rowStart colEnd rowEnd colors => [.writePixelStream colStart rowStart colEnd rowEnd colors]
  | .perPixel pixels => pixels.map (fun p => .writeSinglePixel p.1 p.2.1 p.2.2)

/-- The adapter's chain for a draw request (R173): it stops at the first failure as every chain does (R86). -/
def Draw.chain (cfg : Config) (d : Draw) : List Request := d.operations.map (encode cfg)

/-- The drawable size the adapter reports (R172). -/
def advertisedSize (cfg : Config) : Nat × Nat := (cfg.panelW, cfg.panelH)

end Sys2Proof.Machine
end

