-- ==== Sys2Proof/Machine/Text.lean ====
section
/-! DEFINITION. The textual form of requests (30_encoding R84): one request a line, read to the request it stands for.
No meaning of an instruction depends on this file. DESIGN CHOICE (safe, log 35): what R84's examples leave open. -/

namespace Sys2Proof.Machine

/-- Splits a line into its tokens: spaces and commas separate, brackets stand alone, `;` starts a comment (R84).
`cur` holds the token under way, its characters last first. -/
def lexLine (cur : List Char) : List Char → List (List Char)
  | [] => flush
  | c :: cs =>
    if c = ';' then flush
    else if c = ' ' ∨ c = ',' then flush ++ lexLine [] cs
    else if c = '[' ∨ c = ']' then flush ++ [c] :: lexLine [] cs
    else lexLine (c :: cur) cs
where
  /-- The token under way, if there is one. -/
  flush : List (List Char) := if cur.isEmpty then [] else [cur.reverse]

/-- The value of a digit in base 16. -/
def hexDigit (c : Char) : Option Nat :=
  if '0'.toNat ≤ c.toNat ∧ c.toNat ≤ '9'.toNat then some (c.toNat - '0'.toNat)
  else if 'a'.toNat ≤ c.toNat ∧ c.toNat ≤ 'f'.toNat then some (c.toNat - 'a'.toNat + 10)
  else if 'A'.toNat ≤ c.toNat ∧ c.toNat ≤ 'F'.toNat then some (c.toNat - 'A'.toNat + 10)
  else none

/-- The value of a run of digits in a base, after the value `acc` of the digits before it. -/
def digits (base acc : Nat) : List Char → Option Nat
  | [] => some acc
  | c :: cs =>
    match hexDigit c with
    | some d => if d < base then digits base (acc * base + d) cs else none
    | none => none

/-- A number in decimal or `0x` hexadecimal (R84). -/
def number : List Char → Option Nat
  | [] => none
  | '0' :: 'x' :: c :: cs => digits 16 0 (c :: cs)
  | cs => digits 10 0 cs

/-- A 16-bit operand. -/
def wordOperand (t : List Char) : Option Word := (number t).bind fun n => if n < 65536 then some (BitVec.ofNat 16 n) else none

/-- A parameter byte of a wire command, two hexadecimal digits (R84 `CASET 00 0A 00 0A`). -/
def byteParameter (t : List Char) : Option Byte :=
  match t with
  | [_, _] => (digits 16 0 t).map (BitVec.ofNat 8)
  | _ => none

/-- The operations by name: operation and number of 16-bit operands (R82). `attach` may carry its flag. -/
def operationTable : List (String × Op × Nat) :=
  [("set_column_address", .setColumnAddress, 2), ("set_row_address", .setRowAddress, 2), ("set_address_window", .setAddressWindow, 4),
   ("write_single_pixel", .writeSinglePixel, 3), ("write_pixel_stream", .writePixelStream, 4), ("hard_reset", .hardReset, 0),
   ("soft_reset", .softReset, 0), ("sleep_out", .sleepOut, 0), ("sleep_in", .sleepIn, 0), ("color_mode", .colorMode, 1),
   ("memory_access_control", .memoryAccessControl, 1), ("display_on", .displayOn, 0), ("display_off", .displayOff, 0), ("inversion_on", .inversionOn, 0),
   ("inversion_off", .inversionOff, 0), ("partial_display_mode", .partialDisplayMode, 0), ("normal_mode", .normalMode, 0), ("idle_on", .idleOn, 0),
   ("idle_off", .idleOff, 0), ("initialize", .initializePanel, 0), ("attach", .attach, 0), ("attach_config", .attachConfig, 0), ("release", .release, 0)]

/-- The wire commands by mnemonic (R78). -/
def commandTable : List (String × Cmd) :=
  [("SWRESET", .swreset), ("SLPIN", .slpin), ("SLPOUT", .slpout), ("PTLON", .ptlon), ("NORON", .noron),
   ("INVOFF", .invoff), ("INVON", .invon), ("DISPOFF", .dispoff), ("DISPON", .dispon), ("CASET", .caset),
   ("RASET", .raset), ("RAMWR", .ramwr), ("MADCTL", .madctl), ("IDMOFF", .idmoff), ("IDMON", .idmon), ("COLMOD", .colmod)]

/-- Sets the orientation field of the document's name (R84, R29). The document's "page/column swap" is read as
`page_column_swap`, the form of the two names R84 spells: DESIGN CHOICE (safe, log 35). -/
def orientationField (o : Orientation) (t : List Char) : Option Orientation :=
  if t = "page_order".toList then some { o with pageOrder := true }
  else if t = "column_order".toList then some { o with columnOrder := true }
  else if t = "page_column_swap".toList then some { o with pageColumnSwap := true }
  else if t = "line_order".toList then some { o with lineOrder := true }
  else if t = "color_order".toList then some { o with colorOrder := true }
  else if t = "latch_order".toList then some { o with latchOrder := true }
  else none

/-- The operand of `memory_access_control`: a byte, or the list of the non-default fields (R84). With no operand at all the list
is empty and the byte is that of the default orientation, and of a number above `0xFF` the low byte counts:
DESIGN CHOICE (safe, log 35). -/
def orientationOperand (cfg : Config) (ts : List (List Char)) : Option Word :=
  match ts with
  | [t] => (wordOperand t).or (fields ts)
  | _ => fields ts
where
  /-- The byte of a list of fields. -/
  fields (ts : List (List Char)) : Option Word :=
    (ts.foldlM orientationField defaultOrientation).map fun o => byteOperand (encodeMadctl cfg.madctlBit o)

/-- The colour source of a stream: a bracketed list of 16-bit values, written last (R84). -/
def colorList (ts : List (List Char)) : Option (List Word) :=
  match ts with
  | ['['] :: rest => if rest.getLast? = some [']'] then rest.dropLast.mapM wordOperand else none
  | _ => none

/-- The request of an operation and its operand tokens. A number above `0xFF` for a byte operand is accepted, and the request's
decoding takes its low byte as it does of any request word (R82 `a[7:0]`). R84 does not say how a line gives `has_cs`: `attach` may carry
it as its one operand, of which bit 0 counts (R82 `a[0]`); without it, and in every line `attach_config`, the request has no chip-select
(`a` is 0, `configHasCs` false). DESIGN CHOICE (safe, log 35). -/
def operationOf (cfg : Config) (op : Op) (n : Nat) (ts : List (List Char)) : Option Request :=
  let sel := selector cfg op
  if op = .memoryAccessControl then (orientationOperand cfg ts).map fun a => reqWord sel a 0 0 0
  else if op = .attach ∧ ts.length = 1 then ((ts.headD []) |> wordOperand).map fun a => reqWord sel a 0 0 0
  else
    match (ts.take n).mapM wordOperand with
    | some ws =>
      let word := fun k => ws.getD k 0
      if ws.length ≠ n then none
      else if op = .writePixelStream then
        (colorList (ts.drop n)).map fun colors =>
          .req { sel, a := word 0, b := word 1, c := word 2, d := word 3, side := { colors } }
      else if (ts.drop n).isEmpty then some (reqWord sel (word 0) (word 1) (word 2) (word 3))
      else none
    | none => none

/-- The request a line of text stands for (R84): an operation with its operands, or a wire command with its
parameter bytes. An empty or comment line stands for none. -/
def parseLine (cfg : Config) (line : List Char) : Option Request :=
  match lexLine [] line with
  | [] => none
  | name :: ts =>
    match operationTable.find? (fun row => row.1.toList == name) with
    | some (_, op, n) => operationOf cfg op n ts
    | none =>
      match commandTable.find? (fun row => row.1.toList == name) with
      | some (_, cmd) => (ts.mapM byteParameter).map fun bytes => .frame (opcode cfg cmd :: bytes)
      | none => none

end Sys2Proof.Machine
end

