-- ==== Sys2Proof/Machine/Wire.lean ====
section
/-! DEFINITION. What the controller sees: the wire trace, a derived view of the event trace (10_state R33), and
how a receiver reads frames from it (30_encoding R70 to R74, R80). -/

namespace Sys2Proof.Machine

/-- An item of the wire trace (R33). -/
inductive WireItem where
  | byte (level : Known Level) (b : Byte)
  | broken
  | rst (l : Known Level)
  | cs (l : Known Level)
  | wait (ms : Nat)
  deriving DecidableEq, Repr

/-- The level a pin has after a call: the level driven, or `Unknown` after a failure (R9, R33). -/
def levelAfter (l : Level) (r : CallResult) : Known Level :=
  match r with
  | .ok => .known l
  | .fail _ => .unknown

/-- The pin levels after an event (R33: a level is `Unknown` before the first call on its pin and after a failed one). -/
def Pins.after (ps : Pins) (e : Event) : Pins :=
  match e with
  | .pin p l r => ps.set p (levelAfter l r)
  | .bus _ _ => ps
  | .delay _ => ps

/-- The items event number `k` gives at a `DC` level (R33). `cut k` is how many bytes of event `k`'s failed bus write reached
the controller, which no rule fixes (R10): a claim holds for every `cut` (log 28). -/
def wireItems (cut : Nat → Nat) (k : Nat) (dc : Known Level) (e : Event) : List WireItem :=
  match e with
  | .pin .dc _ _ => []
  | .pin .rst l r => [.rst (levelAfter l r)]
  | .pin .cs l r => [.cs (levelAfter l r)]
  | .bus bs .ok => bs.map (WireItem.byte dc)
  | .bus bs (.fail _) => (bs.take (cut k)).map (WireItem.byte dc) ++ [.broken]
  | .delay ms => [.wait ms]

/-- The walk along the event trace from event number `k` and the pin levels `ps`, over the events that `keep` lets through. -/
def wireFrom (keep : Pins → Event → Bool) (cut : Nat → Nat) : Nat → Pins → List Event → List WireItem
  | _, _, [] => []
  | k, ps, e :: es =>
    (if keep ps e then wireItems cut k ps.dc e else []) ++ wireFrom keep cut (k + 1) (ps.after e) es

/-- No pin has been driven yet. -/
def Pins.undriven : Pins := { dc := .unknown, rst := .unknown, cs := .unknown }

/-- `wire(S.trace)` (R33): an item for every call. -/
def wire (cut : Nat → Nat) (trace : List Event) : List WireItem := wireFrom (fun _ _ => true) cut 0 Pins.undriven trace

/-- What R12 does not forget: a pin call after which the level is another one, or is or was `Unknown`; a bus write with a byte; a delay.
DESIGN CHOICE (safe, log 37): a call from or to `Unknown` may change the level and is kept. -/
def seenByController (ps : Pins) (e : Event) : Bool :=
  match e with
  | .pin p l r => decide (levelAfter l r = .unknown) || decide (ps.get p ≠ levelAfter l r)
  | .bus bs _ => !bs.isEmpty
  | .delay _ => true

/-- The wire trace as R12 has it, "a function of the event trace that forgets pin calls which do not change a level and zero-length
bus writes": R33's walk over the events that are left. Which of the two is "the wire trace" the spec does not settle:
DESIGN CHOICE (safe, log 37), both are defined. -/
def wireSeen (cut : Nat → Nat) (trace : List Event) : List WireItem := wireFrom seenByController cut 0 Pins.undriven trace

/-- A frame as a receiver reads it: an opcode and the data bytes up to the next opcode (R70, R80). -/
structure WireFrame where
  op : Byte
  data : List Byte
  deriving DecidableEq, Repr

/-- One item of the wire trace, read from the end: `acc` holds the frames that follow and the data bytes
that belong to the frame the item before them starts. -/
def wireFrameStep (cfg : Config) (item : WireItem) (acc : List WireFrame × List Byte) : List WireFrame × List Byte :=
  match item with
  | .byte (.known l) b => if l = cfg.dcCmdLevel then ({ op := b, data := acc.2 } :: acc.1, []) else (acc.1, b :: acc.2)
  | .byte .unknown _ | .broken | .rst _ | .cs _ | .wait _ => acc

/-- The frames of a wire trace, told apart by the `DC` level alone (R80). -/
def wireFrames (cfg : Config) (items : List WireItem) : List WireFrame := (items.foldr (wireFrameStep cfg) ([], [])).1

/-- A frame format (R70 to R74). -/
inductive Format where
  | w0
  | w1
  | w4
  | ws
  deriving DecidableEq, Repr

/-- The format each command takes (R78). -/
def Cmd.format : Cmd → Format
  | .caset | .raset => .w4
  | .madctl | .colmod => .w1
  | .ramwr => .ws
  | .swreset | .slpin | .slpout | .ptlon | .noron | .invoff | .invon | .dispoff | .dispon | .idmoff | .idmon => .w0

/-- Whether a count of data bytes fits a format: 0, 1, 4, or any even number (R80). -/
def Format.fits (f : Format) (n : Nat) : Bool :=
  match f with
  | .w0 => n == 0
  | .w1 => n == 1
  | .w4 => n == 4
  | .ws => n % 2 == 0

/-- The receiver's check of a frame (R80): its opcode is a Command and its data bytes fit the format. -/
def frameFits (cfg : Config) (f : WireFrame) : Bool :=
  match cmdOfOpcode cfg f.op with
  | some cmd => (Cmd.format cmd).fits f.data.length
  | none => false

end Sys2Proof.Machine
end

