-- ==== Sys2Proof/Safety.lean ====
section
/-! DEFINITION. The terms claims are stated in: when an operation is accepted, what the collaborators answer, the calls the
spec lists for each operation and how the first failing one cuts them short, the invariant, and the host's duties. -/

namespace Sys2Proof.Machine

/-! ## Acceptance and the environment -/

/-- The block is free and attached (R194). -/
abbrev State.Ready (s : State) : Prop := s.busy = false ∧ s.life = .attached

/-- The block is free and detached (R194). -/
abbrev State.Unattached (s : State) : Prop := s.busy = false ∧ s.life = .detached

/-- The next `n` pin and bus calls succeed. -/
abbrev State.AnswersOk (s : State) (n : Nat) : Prop := ∀ a ∈ s.env.take n, a = .ok

/-- The state after an operation that made `n` pin and bus calls, all of which succeeded, appending the events
`evs`, and returned `Ok` with `back` handed back. -/
def State.succeeded (s : State) (n : Nat) (evs : List Event) (back : Option Resources := none) : State :=
  { s with env := s.env.drop n, trace := s.trace ++ evs, results := s.results ++ [{ err := none, back := back }] }

/-- The state after an operation that made no call, or `n` successful ones, and returned the error `e`. -/
def State.failed (s : State) (n : Nat) (evs : List Event) (e : Err) : State :=
  { s with env := s.env.drop n, trace := s.trace ++ evs, results := s.results ++ [{ err := some e, back := none }], chain := [] }

/-- The state a part of an operation ends in. -/
def Run.state : Run → State
  | .done s => s
  | .stopped _ s => s

/-- Why a part of an operation was cut short, if it was. -/
def Run.why : Run → Option Stop
  | .done _ => none
  | .stopped why _ => some why

/-! ## The calls of each operation (R100, R101, R110 to R147) -/

/-- The two events of a command phase. -/
def commandEvents (cfg : Config) (cmd : Cmd) : List Event :=
  [.pin .dc cfg.dcCmdLevel .ok, .bus [opcode cfg cmd] .ok]

/-- The two events of a data phase. -/
def dataEvents (cfg : Config) (bytes : List Byte) : List Event :=
  [.pin .dc (dcDataLevel cfg) .ok, .bus bytes .ok]

/-- The four events of a frame with parameters. -/
def frameEvents (cfg : Config) (cmd : Cmd) (bytes : List Byte) : List Event := commandEvents cfg cmd ++ dataEvents cfg bytes

/-- The eight events of an address window (R112). -/
def windowEvents (cfg : Config) (colStart rowStart colEnd rowEnd : Word) : List Event :=
  frameEvents cfg .caset [hi8 colStart, lo8 colStart, hi8 colEnd, lo8 colEnd] ++
  frameEvents cfg .raset [hi8 rowStart, lo8 rowStart, hi8 rowEnd, lo8 rowEnd]

/-- The events that open a stream: `RAMWR` with an empty parameter list (R121, R100 corner case 2). -/
def openEvents (cfg : Config) : List Event :=
  commandEvents cfg .ramwr ++ if cfg.emptyParamsDataPhase then dataEvents cfg [] else []

/-- The events of a run of pixels, one data phase each (R121). -/
def pixelEvents (cfg : Config) (colors : List Word) : List Event :=
  colors.flatMap fun c => dataEvents cfg [hi8 c, lo8 c]

/-- The six events of a reset pulse (R133). -/
def hardResetEvents (cfg : Config) : List Event :=
  [.pin .rst .high .ok, .delay cfg.tRstHigh1, .pin .rst .low .ok, .delay cfg.tRstLow, .pin .rst .high .ok, .delay cfg.tRstHigh2]

/-- The 35 events of the bring-up sequence (R147). -/
def initializeEvents (cfg : Config) : List Event :=
  hardResetEvents cfg ++ commandEvents cfg .swreset ++ [.delay cfg.tSwreset] ++ commandEvents cfg .slpout ++
  [.delay cfg.tSlpout] ++ frameEvents cfg .colmod [cfg.initColmod] ++ [.delay cfg.tColmod] ++
  frameEvents cfg .madctl [cfg.initMadctl] ++
  windowEvents cfg 0 0 cfg.initColEnd cfg.initRowEnd ++
  commandEvents cfg .invon ++ commandEvents cfg .noron ++ commandEvents cfg .dispon

/-- What an operation does when every call succeeds: its events, and the error it ends in, if its own operands call for one. -/
structure Plan where
  events : List Event
  err : Option Err

/-- An address window's plan, and what follows it when both axes are in order (R112, R192). -/
def windowPlan (cfg : Config) (colStart rowStart colEnd rowEnd : Word) (rest : List Event) : Plan :=
  if colEnd < colStart then { events := [], err := some .invalidColumnAddress }
  else if rowEnd < rowStart then
    { events := frameEvents cfg .caset [hi8 colStart, lo8 colStart, hi8 colEnd, lo8 colEnd], err := some .invalidRowAddress }
  else { events := windowEvents cfg colStart rowStart colEnd rowEnd ++ rest, err := none }

/-- The plan of each instruction, rule by rule. -/
def plan (s : State) : Instr → Plan
  | .setColumnAddress start last =>
    if last < start then { events := [], err := some .invalidColumnAddress }
    else { events := frameEvents s.cfg .caset [hi8 start, lo8 start, hi8 last, lo8 last], err := none }
  | .setRowAddress start last =>
    if last < start then { events := [], err := some .invalidRowAddress }
    else { events := frameEvents s.cfg .raset [hi8 start, lo8 start, hi8 last, lo8 last], err := none }
  | .setAddressWindow colStart rowStart colEnd rowEnd => windowPlan s.cfg colStart rowStart colEnd rowEnd []
  | .writeSinglePixel x y color =>
    { events := windowEvents s.cfg x y x y ++ commandEvents s.cfg .ramwr ++ dataEvents s.cfg [hi8 color, lo8 color], err := none }
  | .writePixelStream colStart rowStart colEnd rowEnd colors =>
    windowPlan s.cfg colStart rowStart colEnd rowEnd (openEvents s.cfg ++ pixelEvents s.cfg colors)
  | .hardReset => { events := hardResetEvents s.cfg, err := none }
  | .softReset => { events := commandEvents s.cfg .swreset ++ [.delay s.cfg.tSwreset], err := none }
  | .sleepOut => { events := commandEvents s.cfg .slpout ++ [.delay s.cfg.tSlpout], err := none }
  | .sleepIn => { events := commandEvents s.cfg .slpin ++ [.delay s.cfg.tSlpin], err := none }
  | .colorMode format => { events := frameEvents s.cfg .colmod [format] ++ [.delay s.cfg.tColmod], err := none }
  | .memoryAccessControl o => { events := frameEvents s.cfg .madctl [encodeMadctl s.cfg.madctlBit o], err := none }
  | .displayOn => { events := commandEvents s.cfg .dispon, err := none }
  | .displayOff => { events := commandEvents s.cfg .dispoff, err := none }
  | .inversionOn => { events := commandEvents s.cfg .invon, err := none }
  | .inversionOff => { events := commandEvents s.cfg .invoff, err := none }
  | .partialDisplayMode => { events := commandEvents s.cfg .ptlon, err := none }
  | .normalMode => { events := commandEvents s.cfg .noron, err := none }
  | .idleOn => { events := commandEvents s.cfg .idmon, err := none }
  | .idleOff => { events := commandEvents s.cfg .idmoff, err := none }
  | .initializePanel => { events := initializeEvents s.cfg, err := none }
  | .attach _ pins =>
    { events := if pins.cs.isSome && s.cfg.csLowOnAttach then [.pin .cs .low .ok] else [], err := none }
  | .attachConfig _ pins =>
    { events := if pins.cs.isSome && s.cfg.csLowOnAttach then [.pin .cs .low .ok] else [], err := none }
  | .release => { events := if s.hasCs then [.pin .cs .high .ok] else [], err := none }
  | .swreset => { events := commandEvents s.cfg .swreset, err := none }
  | .slpin => { events := commandEvents s.cfg .slpin, err := none }
  | .slpout => { events := commandEvents s.cfg .slpout, err := none }
  | .ptlon => { events := commandEvents s.cfg .ptlon, err := none }
  | .noron => { events := commandEvents s.cfg .noron, err := none }
  | .invoff => { events := commandEvents s.cfg .invoff, err := none }
  | .invon => { events := commandEvents s.cfg .invon, err := none }
  | .dispoff => { events := commandEvents s.cfg .dispoff, err := none }
  | .dispon => { events := commandEvents s.cfg .dispon, err := none }
  | .caset start last => { events := frameEvents s.cfg .caset [hi8 start, lo8 start, hi8 last, lo8 last], err := none }
  | .raset start last => { events := frameEvents s.cfg .raset [hi8 start, lo8 start, hi8 last, lo8 last], err := none }
  | .ramwr colors => { events := commandEvents s.cfg .ramwr ++ pixelEvents s.cfg colors, err := none }
  | .madctl o => { events := frameEvents s.cfg .madctl [encodeMadctl s.cfg.madctlBit o], err := none }
  | .idmoff => { events := commandEvents s.cfg .idmoff, err := none }
  | .idmon => { events := commandEvents s.cfg .idmon, err := none }
  | .colmod format => { events := frameEvents s.cfg .colmod [format], err := none }

/-- What is seen of a plan when the collaborators give these answers (R186, R188): the events up to the first
call that does not succeed, that call with its failure, and how the operation ends. A call that never
returns has no result and so no event (R218). -/
def follow (err : Option Err) : List Event → List Answer → List Event × Option Stop
  | [], _ => ([], err.map Stop.err)
  | .delay ms :: es, as => (.delay ms :: (follow err es as).1, (follow err es as).2)
  | .pin p l _ :: es, as =>
    match as.headD .ok with
    | .ok => (.pin p l .ok :: (follow err es as.tail).1, (follow err es as.tail).2)
    | .fail e => ([.pin p l (.fail e)], some (.err (.pinError e)))
    | .never => ([], some .hang)
  | .bus bs _ :: es, as =>
    match as.headD .ok with
    | .ok => (.bus bs .ok :: (follow err es as.tail).1, (follow err es as.tail).2)
    | .fail e => ([.bus bs (.fail e)], some (.err (.busError e)))
    | .never => ([], some .hang)

/-- What an instruction hands back to the host with `Ok` (R132). -/
def handedBack (s : State) : Instr → Option Resources
  | .release => s.res
  | _ => none

/-- What an instruction hands back to the host with an error (R132, D17: open). -/
def handedBackOnError (s : State) : Instr → Option Resources
  | .release => if Config.releaseReturnsOnError then s.res else none
  | _ => none

/-- The outcomes of an operation that sends one frame without parameters, then makes no call but the delays `delays`
(43_lifecycle_power R134, R135, R136, R148): all calls succeed, the pin call fails, or the bus call fails. `ghost` is its effect
on the controller when the frame is complete, `inDoubt` when its bus call fails (R151, R189). -/
def SendsOneOpcode (i : Instr) (cmd : Cmd) (delays : Config → List Event) (ghost inDoubt : Ghost → Ghost) : Prop :=
  ∀ s : State, s.Ready →
    (s.AnswersOk 2 →
      exec i s = .next { s.succeeded 2 ([.pin .dc s.cfg.dcCmdLevel .ok, .bus [opcode s.cfg cmd] .ok] ++ delays s.cfg) with
        pins := { s.pins with dc := .known s.cfg.dcCmdLevel }, ghost := ghost s.ghost }) ∧
    (∀ e rest, s.env = .fail e :: rest →
      exec i s = .next { s.failed 1 [.pin .dc s.cfg.dcCmdLevel (.fail e)] (.pinError e) with
        pins := { s.pins with dc := .unknown } }) ∧
    (∀ e rest, s.env = .ok :: .fail e :: rest →
      exec i s = .next
        { s.failed 2 [.pin .dc s.cfg.dcCmdLevel .ok, .bus [opcode s.cfg cmd] (.fail e)] (.busError e) with
          pins := { s.pins with dc := .known s.cfg.dcCmdLevel }, ghost := inDoubt s.ghost })

/-- The outcome, when every call succeeds, of an operation that sends one frame with parameter bytes (R100). -/
def SendsOneFrame (i : Instr) (cmd : Cmd) (bytes : Config → List Byte) (delays : List Event) (ghost : Config → Ghost → Ghost) :
    Prop :=
  ∀ s : State, s.Ready → s.AnswersOk 4 →
    exec i s = .next
      { s.succeeded 4 ([.pin .dc s.cfg.dcCmdLevel .ok, .bus [opcode s.cfg cmd] .ok, .pin .dc (dcDataLevel s.cfg) .ok,
          .bus (bytes s.cfg) .ok] ++ delays) with
        pins := { s.pins with dc := .known (dcDataLevel s.cfg) }, ghost := ghost s.cfg s.ghost }

/-- The outcomes of an operation that sends one frame with parameter bytes, when one of its four calls fails (R100, R104): nothing was
sent, the opcode is in doubt, the opcode alone was sent, or the opcode and part of the bytes. No later call is made, no delay either.
`cut` makes what the frame would have written `Unknown` (R151, R189). -/
def CutsOneFrame (i : Instr) (cmd : Cmd) (bytes : Config → List Byte) (cut : Ghost → Ghost) : Prop :=
  ∀ (s : State) (e : ErrorValue) (rest : List Answer), s.Ready → i.wellFormed s.cfg = true →
    (s.env = .fail e :: rest → exec i s = .next
      { s.failed 1 [.pin .dc s.cfg.dcCmdLevel (.fail e)] (.pinError e) with pins := { s.pins with dc := .unknown } }) ∧
    (s.env = .ok :: .fail e :: rest → exec i s = .next
      { s.failed 2 [.pin .dc s.cfg.dcCmdLevel .ok, .bus [opcode s.cfg cmd] (.fail e)] (.busError e) with
        pins := { s.pins with dc := .known s.cfg.dcCmdLevel }, ghost := { cut s.ghost with ramwrOpen := .unknown } }) ∧
    (s.env = .ok :: .ok :: .fail e :: rest → exec i s = .next
      { s.failed 3 (commandEvents s.cfg cmd ++ [.pin .dc (dcDataLevel s.cfg) (.fail e)]) (.pinError e) with
        pins := { s.pins with dc := .unknown }, ghost := { cut s.ghost with ramwrOpen := .known false } }) ∧
    (s.env = .ok :: .ok :: .ok :: .fail e :: rest → exec i s = .next
      { s.failed 4 (commandEvents s.cfg cmd ++ [.pin .dc (dcDataLevel s.cfg) .ok, .bus (bytes s.cfg) (.fail e)]) (.busError e) with
        pins := { s.pins with dc := .known (dcDataLevel s.cfg) }, ghost := { cut s.ghost with ramwrOpen := .known false } })

/-! ## Properties of traces -/

/-- An event that reports no failure. -/
def Event.succeeded : Event → Bool
  | .pin _ _ r => r == .ok
  | .bus _ r => r == .ok
  | .delay _ => true

/-- The frame discipline of 40_framer R102 and R103 over a run of events: every bus write directly follows a successful
set of `DC`, to the command level with one opcode of the Command Table, or to the data level with that pin set
directly following a successful bus write. -/
def Phased (cfg : Config) (evs : List Event) : Prop :=
  ∀ before bs r after, evs = before ++ Event.bus bs r :: after →
    (∃ earlier cmd, before = earlier ++ [.pin .dc cfg.dcCmdLevel .ok] ∧ bs = [opcode cfg cmd]) ∨
    (∃ earlier bs', before = earlier ++ [.bus bs' .ok, .pin .dc (dcDataLevel cfg) .ok])

/-- The delays of 43_lifecycle_power R150. -/
def delayTable (cfg : Config) : List Nat :=
  [cfg.tRstHigh1, cfg.tRstLow, cfg.tRstHigh2, cfg.tSwreset, cfg.tSlpout, cfg.tSlpin, cfg.tColmod]

/-! ## What each command may change in the controller -/

/-- The ghost `g` with only the fields the command writes taken from `t` (10_state R27 to R31, R34, R35; 20_memory R62:
every opcode byte but those of sleep in and sleep out also ends the open stream, log 38). -/
def Ghost.touchedBy (cmd : Cmd) (g t : Ghost) : Ghost :=
  match cmd with
  | .swreset => t
  | .slpin | .slpout => { g with power := t.power }
  | .dispoff | .dispon => { g with power := t.power, ramwrOpen := t.ramwrOpen }
  | .ptlon | .noron => { g with region := t.region, ramwrOpen := t.ramwrOpen }
  | .invoff | .invon => { g with inversion := t.inversion, ramwrOpen := t.ramwrOpen }
  | .idmoff | .idmon => { g with idle := t.idle, ramwrOpen := t.ramwrOpen }
  | .caset => { g with xs := t.xs, xe := t.xe, ramwrOpen := t.ramwrOpen }
  | .raset => { g with ys := t.ys, ye := t.ye, ramwrOpen := t.ramwrOpen }
  | .madctl => { g with madctl := t.madctl, ramwrOpen := t.ramwrOpen }
  | .colmod => { g with colmod := t.colmod, ramwrOpen := t.ramwrOpen }
  | .ramwr => { g with ramwrOpen := t.ramwrOpen, wptr := t.wptr, ram := t.ram }

/-- The one command an instruction sends, for the instructions that send exactly one frame and no pixel. -/
def oneCommand : Instr → Option Cmd
  | .setColumnAddress .. | .caset .. => some .caset
  | .setRowAddress .. | .raset .. => some .raset
  | .softReset | .swreset => some .swreset
  | .sleepOut | .slpout => some .slpout
  | .sleepIn | .slpin => some .slpin
  | .colorMode _ | .colmod _ => some .colmod
  | .memoryAccessControl _ | .madctl _ => some .madctl
  | .displayOn | .dispon => some .dispon
  | .displayOff | .dispoff => some .dispoff
  | .inversionOn | .invon => some .invon
  | .inversionOff | .invoff => some .invoff
  | .partialDisplayMode | .ptlon => some .ptlon
  | .normalMode | .noron => some .noron
  | .idleOn | .idmon => some .idmon
  | .idleOff | .idmoff => some .idmoff
  | .setAddressWindow .. | .writeSinglePixel .. | .writePixelStream .. | .hardReset | .initializePanel | .attach ..
  | .attachConfig .. | .release | .ramwr _ => none

/-- The state `s` with only what any operation on the handle may change taken from `t`: the trace, the answers used up, the result,
the chain (ended by an error), the busy mark, the `DC` shadow and the ghost controller. -/
def State.handleTouched (s t : State) : State :=
  { s with trace := t.trace, env := t.env, results := t.results, chain := t.chain, busy := t.busy,
           pins := { s.pins with dc := t.pins.dc }, ghost := t.ghost }

/-! ## The invariant -/

/-- A value that is `Unknown` or meets `p`. -/
def Known.meets {α : Type} (k : Known α) (p : α → Bool) : Bool :=
  match k with
  | .unknown => true
  | .known v => p v

/-- While a stream is open at a known position, all four window registers are known (R62, R215). -/
def Ghost.streamReady (g : Ghost) : Bool :=
  match g.ramwrOpen, g.wptr with
  | .known true, .known _ => decide (g.windowStart ≠ .unknown)
  | _, _ => true

/-- What holds of every state a run can reach: the parameters meet the spec's constraints, the frame memory is in its
canonical form, the resources are owned exactly while attached (R22), the `CS` shadow is untouched without
a `CS` pin (R23), an open stream has its window (R62), and the two configuration registers hold what the block may send (R29, R30). -/
abbrev State.Inv (s : State) : Prop :=
  s.cfg.Ok ∧ s.ghost.ram.wf ∧ (s.life = .attached ↔ s.res.isSome = true) ∧
  (s.life = .attached → s.hasCs = false → s.pins.cs = .unknown) ∧
  s.ghost.streamReady = true ∧
  s.ghost.colmod.meets (legalFormat s.cfg) = true ∧
  s.ghost.madctl.meets (fun b => (decodeMadctl s.cfg.madctlBit b).isSome) = true

/-! ## The host's duties (70_reset_and_hazards R212 to R225) -/

/-- The number of pixels of a rectangle, ends inclusive (R123). -/
def pixelCount (colStart rowStart colEnd rowEnd : Word) : Nat :=
  (colEnd.toNat - colStart.toNat + 1) * (rowEnd.toNat - rowStart.toNat + 1)

/-- The count contract of a stream (R217). -/
def contractKept (colStart rowStart colEnd rowEnd : Word) (colors : List Word) : Bool :=
  decide (colors.length = pixelCount colStart rowStart colEnd rowEnd)

/-- The lifecycle a chain of instructions must respect (R194, R225), from the life state `l`. -/
def chainRespects (l : Life) : List Instr → Bool
  | [] => true
  | i :: is => decide (lifeNeeded i = l) && chainRespects (lifeAfter i) is
where
  /-- The life state after an instruction that was accepted (R21). -/
  lifeAfter : Instr → Life
    | .release => .detached
    | _ => .attached

/-- Everything a `write_*` operation relies on is known: both windows (R215) and 16 bits per pixel (R62). -/
def Ghost.readyForPixels (g : Ghost) : Bool := decide (g.windowStart ≠ .unknown) && sixteenBit g.colmod

end Sys2Proof.Machine
end

