-- ==== Sys2Proof/Certificates/Slice0/Obligations.lean ====
section
/-! DEFINITION. The statements for the provers. Each docstring names the rule or the section of the spec it rests on, and the
log entry where a clause is the model's own choice. -/

open Sys2Proof Sys2Proof.Machine

/-! ## Encoding -/

/-- 30_encoding R70 to R82, R78 "pairwise distinct" and the distinct selectors (log 1) in the premise `cfg.Ok`: decoding the encoding of a well-formed
instruction gives it back, with every operand, for every choice of the parameters. -/
def Obligations.DecodeOfEncodeIsTheInstruction : Prop :=
  ∀ (cfg : Config) (i : Instr), cfg.Ok → i.wellFormed cfg = true → decode cfg (encode cfg i) = .ok i

/-- 30_encoding R81: the 72-bit word and its fields determine each other. -/
def Obligations.RequestWordAndFieldsAgree : Prop :=
  (∀ r : Req, Req.ofWord r.toWord r.side = r) ∧ (∀ (w : BitVec 72) (side : Side), (Req.ofWord w side).toWord = w)

/-- 30_encoding R81, R82, R78 and 95_test_vectors V1, V2, V29, V37, V62: a few words, written out, decode to what they stand for. -/
def Obligations.WrittenWordsDecode : Prop :=
  decode Config.default (.req (Req.ofWord 0x04000A0014F8000000#72 {})) = .ok (.writeSinglePixel 10 20 0xF800) ∧
  decode Config.default (.req (Req.ofWord 0x030001000200030004#72 {})) = .ok (.setAddressWindow 1 2 3 4) ∧
  decode Config.default (.req (Req.ofWord 0x140000000000000000#72 {})) = .ok .initializePanel ∧
  decode Config.default (.req (Req.ofWord 0x0A0055000000000000#72 {})) = .ok (.colorMode 0x55) ∧
  decode Config.default (.frame [0x2A, 0x00, 0x0A, 0x00, 0x0B]) = .ok (.caset 10 11) ∧
  decode Config.default (.frame [0x2C, 0xF8, 0x00, 0x12, 0x34]) = .ok (.ramwr [0xF800, 0x1234])

/-- 30_encoding R83: the selectors that name no operation are refused, under the selectors of R82 and under any other table. -/
def Obligations.ReservedSelectorsHaveNoStep : Prop :=
  ∀ (s : State) (r : Req) (rest : List Request),
    ((s.cfg.opsel = Config.default.opsel ∧ (r.sel.toNat = 0 ∨ 0x18 ≤ r.sel.toNat)) ∨ r.sel ∉ s.cfg.opsel.toList) →
    decode s.cfg (.req r) = .error (.unknownSelector r.sel) ∧
    (s.chain = .req r :: rest → step s = .refused (.illFormed (.unknownSelector r.sel)))

/-- 60_exceptions R195: the four kinds of ill-formed request have no step. The selectors are those of R82. -/
def Obligations.IllFormedRequestsHaveNoStep : Prop :=
  ∀ (s : State) (rest : List Request), s.cfg.opsel = Config.default.opsel →
    (∀ r : Req, s.chain = .req r :: rest → (r.sel.toNat = 0 ∨ 0x18 ≤ r.sel.toNat) → ∃ why, step s = .refused why) ∧
    (∀ r : Req, s.chain = .req r :: rest → r.sel = 0x0A#8 → lo8 r.a ∉ s.cfg.colmodSet → ∃ why, step s = .refused why) ∧
    (∀ r : Req, s.chain = .req r :: rest → r.sel = 0x0B#8 → s.cfg.madctlBit = Config.default.madctlBit →
      r.a.getLsbD 0 = true ∨ r.a.getLsbD 1 = true → ∃ why, step s = .refused why) ∧
    (∀ op data, s.chain = .frame (op :: data) :: rest → (∀ cmd, opcode s.cfg cmd ≠ op) → ∃ why, step s = .refused why)

/-- 30_encoding R76: the orientation byte, for the bits the spec adopts and for any six distinct bits. -/
def Obligations.OrientationByteIsTheUnionOfItsFields : Prop :=
  (∀ o : Orientation, encodeMadctl Config.default.madctlBit o =
    (if o.pageOrder then 0x80#8 else 0#8) ||| (if o.columnOrder then 0x40#8 else 0#8) |||
    (if o.pageColumnSwap then 0x20#8 else 0#8) ||| (if o.lineOrder then 0x10#8 else 0#8) |||
    (if o.colorOrder then 0x08#8 else 0#8) ||| (if o.latchOrder then 0x04#8 else 0#8)) ∧
  (∀ b : Byte, (∃ o, encodeMadctl Config.default.madctlBit o = b) ↔ b &&& 0x03#8 = 0#8) ∧
  (∀ bits : MadctlBits, bits.toList.Nodup → ∀ o : Orientation,
    (∀ o', encodeMadctl bits o = encodeMadctl bits o' → o = o') ∧
    encodeMadctl bits o ^^^ encodeMadctl bits { o with pageOrder := !o.pageOrder } = BitVec.twoPow 8 bits.page ∧
    encodeMadctl bits o ^^^ encodeMadctl bits { o with columnOrder := !o.columnOrder } = BitVec.twoPow 8 bits.column ∧
    encodeMadctl bits o ^^^ encodeMadctl bits { o with pageColumnSwap := !o.pageColumnSwap } = BitVec.twoPow 8 bits.swap ∧
    encodeMadctl bits o ^^^ encodeMadctl bits { o with lineOrder := !o.lineOrder } = BitVec.twoPow 8 bits.line ∧
    encodeMadctl bits o ^^^ encodeMadctl bits { o with colorOrder := !o.colorOrder } = BitVec.twoPow 8 bits.color ∧
    encodeMadctl bits o ^^^ encodeMadctl bits { o with latchOrder := !o.latchOrder } = BitVec.twoPow 8 bits.latch) ∧
  encodeMadctl Config.default.madctlBit ⟨false, false, false, false, false, false⟩ = 0x00#8 ∧
  encodeMadctl Config.default.madctlBit ⟨true, true, true, true, true, true⟩ = 0xFC#8

/-- 60_exceptions R181 and 30_encoding R81: the result codes; and for any table within the constraints, the code tells the results apart
(that the codes of a record differ is log 1). -/
def Obligations.ResultCodesAreTheErrorTable : Prop :=
  (∀ (back : Option Resources) (e : ErrorValue),
    Result.code Config.default ⟨none, back⟩ = 0 ∧ Result.code Config.default ⟨some .invalidColumnAddress, back⟩ = 1 ∧
    Result.code Config.default ⟨some .invalidRowAddress, back⟩ = 2 ∧ Result.code Config.default ⟨some (.pinError e), back⟩ = 3 ∧
    Result.code Config.default ⟨some (.busError e), back⟩ = 4) ∧
  (∀ (cfg : Config) (r : Result), cfg.Ok →
    (Result.code cfg r = 0 ↔ r.err = none) ∧
    (Result.code cfg r = cfg.errCode.invalidColumnAddress ↔ r.err = some .invalidColumnAddress) ∧
    (Result.code cfg r = cfg.errCode.invalidRowAddress ↔ r.err = some .invalidRowAddress) ∧
    (Result.code cfg r = cfg.errCode.pinError ↔ ∃ e, r.err = some (.pinError e)) ∧
    (Result.code cfg r = cfg.errCode.busError ↔ ∃ e, r.err = some (.busError e)))

/-- 30_encoding R84: lines of text and the requests they stand for (the rule's own examples). -/
def Obligations.TextExamplesParse : Prop :=
  parseLine Config.default "write_single_pixel 10, 20, 0xF800 ; red".toList = some (reqWord 0x04 10 20 0xF800 0) ∧
  parseLine Config.default "memory_access_control column_order, color_order".toList = some (reqWord 0x0B 0x48 0 0 0) ∧
  parseLine Config.default "write_pixel_stream 1, 2, 2, 3, [0x0001, 0x0203]".toList =
    some (.req ⟨0x05, 1, 2, 2, 3, { colors := [0x0001, 0x0203] }⟩) ∧
  parseLine Config.default "CASET 00 0A 00 0A".toList = some (.frame [0x2A, 0x00, 0x0A, 0x00, 0x0A])

/-! ## Steps, chains, acceptance -/

/-- 30_encoding R86, 20_memory R60: a step runs the instruction the host's next request names, that request taken off the chain; a request that
names none has no step (60_exceptions R195). Without a request the block waits for the host (43_lifecycle_power R152), or is stuck in a call that
never returned (70_reset_and_hazards R218). The chain is the model's field (logs 6 and 8). -/
def Obligations.StepRunsTheNextRequest : Prop :=
  (∀ (s : State) (r : Request) (rest : List Request) (i : Instr),
    s.chain = r :: rest → decode s.cfg r = .ok i → step s = exec i { s with chain := rest }) ∧
  (∀ (s : State) (r : Request) (rest : List Request) (why : Reject),
    s.chain = r :: rest → decode s.cfg r = .error why → step s = .refused (.illFormed why)) ∧
  (∀ s : State, s.chain = [] → (s.busy = false → step s = .next s) ∧ (s.busy = true → step s = .fault .hung))

/-- 30_encoding R86, 60_exceptions R186: an error ends the chain, `Ok` goes on with the rest of it. The chain is the model's field (log 8). -/
def Obligations.ChainEndsAtTheFirstError : Prop :=
  ∀ (s t : State) (r : Request) (rest : List Request) (res : Result),
    s.chain = r :: rest → step s = .next t → t.results = s.results ++ [res] →
      (res.err.isSome = true → t.chain = []) ∧ (res.err = none → t.chain = rest)

/-- 60_exceptions R194: the requests that have no step for the lifecycle or because the block is busy. -/
def Obligations.OperationsOutOfTurnHaveNoStep : Prop :=
  ∀ (i : Instr) (s : State),
    (s.busy = true → ∃ why, exec i s = .refused why) ∧
    (s.life = .detached → (∀ bus pins, i ≠ .attach bus pins) → (∀ bus pins, i ≠ .attachConfig bus pins) →
      ∃ why, exec i s = .refused why) ∧
    (s.life = .attached → ∀ bus pins, (∃ why, exec (.attach bus pins) s = .refused why) ∧
      ∃ why, exec (.attachConfig bus pins) s = .refused why)

/-- 10_state R21: what changes the lifecycle field. -/
def Obligations.LifecycleMovesOnlyByAttachAndRelease : Prop :=
  State.reset.life = .detached ∧
  ∀ (i : Instr) (s t : State), exec i s = .next t →
    (∀ bus pins, i = .attach bus pins ∨ i = .attachConfig bus pins → s.life = .detached ∧ t.life = .attached) ∧
    (i = .release → s.life = .attached ∧ t.life = .detached) ∧
    ((∀ bus pins, i ≠ .attach bus pins) → (∀ bus pins, i ≠ .attachConfig bus pins) → i ≠ .release →
      s.life = .attached ∧ t.life = .attached)

/-- 10_state R37: the reset state, field by field, and the operations that can run from it. That the stream flag is false is R37's table,
taken over the ruling D16 (log 39). -/
def Obligations.ResetLeavesTheListedState : Prop :=
  State.reset.life = .detached ∧ State.reset.res = none ∧
  State.reset.pins = ⟨.unknown, .unknown, .unknown⟩ ∧ State.reset.busy = false ∧ State.reset.trace = [] ∧
  State.reset.ghost.power = .unknown ∧ State.reset.ghost.region = .unknown ∧ State.reset.ghost.inversion = .unknown ∧
  State.reset.ghost.idle = .unknown ∧ State.reset.ghost.xs = .unknown ∧ State.reset.ghost.xe = .unknown ∧
  State.reset.ghost.ys = .unknown ∧ State.reset.ghost.ye = .unknown ∧ State.reset.ghost.madctl = .unknown ∧
  State.reset.ghost.colmod = .unknown ∧ State.reset.ghost.wptr = .unknown ∧
  State.reset.ghost.ramwrOpen = .known false ∧
  (∀ col row, State.reset.ghost.ram.readPixel col row = .unknown) ∧
  (∀ i t, exec i State.reset = .next t → ∃ bus pins, i = .attach bus pins ∨ i = .attachConfig bus pins)

/-! ## The capability primitives -/

/-- 00_scope R9, R10, R11: the three primitives. The answer is the environment's (log 5). -/
def Obligations.CapabilityPrimitivesRecordTheirCall : Prop :=
  ∀ (p : Pin) (l : Level) (bs : List Byte) (n : Nat) (s : State),
    (s.answer = .ok → ∃ t, pinSet p l s = .done t ∧ t.trace = s.trace ++ [.pin p l .ok] ∧ t.pin p = .known l ∧
      (∀ q, q ≠ p → t.pin q = s.pin q)) ∧
    (∀ e, s.answer = .fail e → ∃ t, pinSet p l s = .stopped (.err (.pinError e)) t ∧
      t.trace = s.trace ++ [.pin p l (.fail e)] ∧ t.pin p = .unknown ∧ (∀ q, q ≠ p → t.pin q = s.pin q)) ∧
    (s.answer = .ok → ∃ t, busWrite bs s = .done t ∧ t.trace = s.trace ++ [.bus bs .ok] ∧ t.pins = s.pins) ∧
    (∀ e, s.answer = .fail e → ∃ t, busWrite bs s = .stopped (.err (.busError e)) t ∧
      t.trace = s.trace ++ [.bus bs (.fail e)] ∧ t.pins = s.pins) ∧
    (∃ t, delayMs n s = .done t ∧ t.trace = s.trace ++ [.delay n] ∧ t.env = s.env ∧ t.pins = s.pins)

/-! ## Addressing -/

/-- 20_memory R52: four parameter bytes, big-endian start then big-endian end, for either axis. -/
def Obligations.WindowParametersAreBigEndian : Prop :=
  ∀ (s : State) (start last : Word), s.Ready → s.AnswersOk 4 → start ≤ last →
    ∀ p ∈ [(Instr.setColumnAddress start last, Cmd.caset), (Instr.setRowAddress start last, Cmd.raset)], ∃ t,
      exec p.1 s = .next t ∧ t.results = s.results ++ [⟨none, none⟩] ∧
      t.trace = s.trace ++
        [.pin .dc s.cfg.dcCmdLevel .ok, .bus [opcode s.cfg p.2] .ok, .pin .dc (dcDataLevel s.cfg) .ok,
         .bus [BitVec.ofNat 8 (start.toNat / 256), BitVec.ofNat 8 (start.toNat % 256),
               BitVec.ofNat 8 (last.toNat / 256), BitVec.ofNat 8 (last.toNat % 256)] .ok]

/-- 41_addressing R110: set_column_address under each behaviour of the collaborators, and its selector. -/
def Obligations.SetColumnAddressOutcomes : Prop :=
  (∀ (cfg : Config) (r : Req), cfg.opsel = Config.default.opsel → r.sel = 0x01#8 →
    decode cfg (.req r) = .ok (.setColumnAddress r.a r.b)) ∧
  ∀ (s : State) (start last : Word), s.Ready →
    (last < start → exec (.setColumnAddress start last) s = .next (s.failed 0 [] .invalidColumnAddress)) ∧
    (start ≤ last → s.AnswersOk 4 → exec (.setColumnAddress start last) s = .next
      { s.succeeded 4 (frameEvents s.cfg .caset [hi8 start, lo8 start, hi8 last, lo8 last]) with
        pins := { s.pins with dc := .known (dcDataLevel s.cfg) },
        ghost := { s.ghost with xs := .known start, xe := .known last, ramwrOpen := .known false } }) ∧
    (start ≤ last → ∀ e rest, s.env = .fail e :: rest → exec (.setColumnAddress start last) s = .next
      { s.failed 1 [.pin .dc s.cfg.dcCmdLevel (.fail e)] (.pinError e) with pins := { s.pins with dc := .unknown } }) ∧
    (start ≤ last → ∀ e rest, s.env = .ok :: .fail e :: rest → ∃ g, exec (.setColumnAddress start last) s = .next
      { s.failed 2 [.pin .dc s.cfg.dcCmdLevel .ok, .bus [opcode s.cfg .caset] (.fail e)] (.busError e) with
        pins := { s.pins with dc := .known s.cfg.dcCmdLevel }, ghost := g } ∧ g.xs = .unknown ∧ g.xe = .unknown) ∧
    (start ≤ last → ∀ e rest, s.env = .ok :: .ok :: .fail e :: rest → ∃ g, exec (.setColumnAddress start last) s = .next
      { s.failed 3 (commandEvents s.cfg .caset ++ [.pin .dc (dcDataLevel s.cfg) (.fail e)]) (.pinError e) with
        pins := { s.pins with dc := .unknown }, ghost := g } ∧ g.xs = .unknown ∧ g.xe = .unknown) ∧
    (start ≤ last → ∀ e rest, s.env = .ok :: .ok :: .ok :: .fail e :: rest →
      ∃ g, exec (.setColumnAddress start last) s = .next
      { s.failed 4 (commandEvents s.cfg .caset ++ [.pin .dc (dcDataLevel s.cfg) .ok,
          .bus [hi8 start, lo8 start, hi8 last, lo8 last] (.fail e)]) (.busError e) with
        pins := { s.pins with dc := .known (dcDataLevel s.cfg) }, ghost := g } ∧ g.xs = .unknown ∧ g.xe = .unknown)

/-- 41_addressing R111: set_row_address under each behaviour of the collaborators, and its selector. -/
def Obligations.SetRowAddressOutcomes : Prop :=
  (∀ (cfg : Config) (r : Req), cfg.opsel = Config.default.opsel → r.sel = 0x02#8 →
    decode cfg (.req r) = .ok (.setRowAddress r.a r.b)) ∧
  ∀ (s : State) (start last : Word), s.Ready →
    (last < start → exec (.setRowAddress start last) s = .next (s.failed 0 [] .invalidRowAddress)) ∧
    (start ≤ last → s.AnswersOk 4 → exec (.setRowAddress start last) s = .next
      { s.succeeded 4 (frameEvents s.cfg .raset [hi8 start, lo8 start, hi8 last, lo8 last]) with
        pins := { s.pins with dc := .known (dcDataLevel s.cfg) },
        ghost := { s.ghost with ys := .known start, ye := .known last, ramwrOpen := .known false } }) ∧
    (start ≤ last → ∀ e rest, s.env = .fail e :: rest → exec (.setRowAddress start last) s = .next
      { s.failed 1 [.pin .dc s.cfg.dcCmdLevel (.fail e)] (.pinError e) with pins := { s.pins with dc := .unknown } }) ∧
    (start ≤ last → ∀ e rest, s.env = .ok :: .fail e :: rest → ∃ g, exec (.setRowAddress start last) s = .next
      { s.failed 2 [.pin .dc s.cfg.dcCmdLevel .ok, .bus [opcode s.cfg .raset] (.fail e)] (.busError e) with
        pins := { s.pins with dc := .known s.cfg.dcCmdLevel }, ghost := g } ∧ g.ys = .unknown ∧ g.ye = .unknown) ∧
    (start ≤ last → ∀ e rest, s.env = .ok :: .ok :: .fail e :: rest → ∃ g, exec (.setRowAddress start last) s = .next
      { s.failed 3 (commandEvents s.cfg .raset ++ [.pin .dc (dcDataLevel s.cfg) (.fail e)]) (.pinError e) with
        pins := { s.pins with dc := .unknown }, ghost := g } ∧ g.ys = .unknown ∧ g.ye = .unknown) ∧
    (start ≤ last → ∀ e rest, s.env = .ok :: .ok :: .ok :: .fail e :: rest →
      ∃ g, exec (.setRowAddress start last) s = .next
      { s.failed 4 (commandEvents s.cfg .raset ++ [.pin .dc (dcDataLevel s.cfg) .ok,
          .bus [hi8 start, lo8 start, hi8 last, lo8 last] (.fail e)]) (.busError e) with
        pins := { s.pins with dc := .known (dcDataLevel s.cfg) }, ghost := g } ∧ g.ys = .unknown ∧ g.ye = .unknown)

/-- 60_exceptions R182: exactly when InvalidColumnAddress is raised, and that nothing has changed then. -/
def Obligations.InvalidColumnExactlyWhenStartIsAfterEnd : Prop :=
  ∀ (s : State) (start last : Word),
    ((∃ t, setColumnAddress start last s = .stopped (.err .invalidColumnAddress) t) ↔ start.toNat > last.toNat) ∧
    (∀ t, setColumnAddress start last s = .stopped (.err .invalidColumnAddress) t →
      t.trace = s.trace ∧ t.pins = s.pins ∧ t.ghost = s.ghost ∧ t = s) ∧
    (s.Ready → start.toNat > last.toNat →
      exec (.setColumnAddress start last) s = .next (s.failed 0 [] .invalidColumnAddress))

/-- 60_exceptions R183: exactly when InvalidRowAddress is raised; inside a window operation the column frame has been sent. -/
def Obligations.InvalidRowExactlyWhenStartIsAfterEnd : Prop :=
  ∀ (s : State) (start last : Word),
    ((∃ t, setRowAddress start last s = .stopped (.err .invalidRowAddress) t) ↔ start.toNat > last.toNat) ∧
    (∀ t, setRowAddress start last s = .stopped (.err .invalidRowAddress) t → t = s) ∧
    (s.Ready → s.AnswersOk 4 → start.toNat > last.toNat → ∀ colStart colEnd : Word, colStart ≤ colEnd → ∀ colors,
      ∀ i ∈ [Instr.setAddressWindow colStart start colEnd last, Instr.writePixelStream colStart start colEnd last colors],
      exec i s = .next
        { s.failed 4 (frameEvents s.cfg .caset [hi8 colStart, lo8 colStart, hi8 colEnd, lo8 colEnd]) .invalidRowAddress with
          pins := { s.pins with dc := .known (dcDataLevel s.cfg) },
          ghost := { s.ghost with xs := .known colStart, xe := .known colEnd, ramwrOpen := .known false } })

/-- 41_addressing R112, 60_exceptions R192, 20_memory R62 for the stream flag: the window operation, column leg first; a leg that fails ends it,
in every state and environment. -/
def Obligations.SetAddressWindowSendsColumnThenRow : Prop :=
  ∀ (s : State) (colStart rowStart colEnd rowEnd : Word),
    (s.Ready → colStart ≤ colEnd → rowStart ≤ rowEnd → s.AnswersOk 8 →
      exec (.setAddressWindow colStart rowStart colEnd rowEnd) s = .next
        { s.succeeded 8 (windowEvents s.cfg colStart rowStart colEnd rowEnd) with
          pins := { s.pins with dc := .known (dcDataLevel s.cfg) },
          ghost := { s.ghost with xs := .known colStart, xe := .known colEnd, ys := .known rowStart, ye := .known rowEnd,
                                  ramwrOpen := .known false } }) ∧
    (s.Ready → colEnd < colStart →
      exec (.setAddressWindow colStart rowStart colEnd rowEnd) s = .next (s.failed 0 [] .invalidColumnAddress)) ∧
    (∀ why t, setColumnAddress colStart colEnd s = .stopped why t →
      setAddressWindow colStart rowStart colEnd rowEnd s = .stopped why t) ∧
    (∀ t, setColumnAddress colStart colEnd s = .done t →
      setAddressWindow colStart rowStart colEnd rowEnd s = setRowAddress rowStart rowEnd t)

/-! ## Pixel writes -/

/-- 42_pixel_write R120, 20_memory R62: one pixel. The controller is left with its window full, so the position is unknown.
Where the pixel format is not known to be 16 bits, what the bytes do to the frame memory is not given: log 12. What may be claimed of a
pixel is `State.pixel`, which says nothing of a place outside the panel (93 U9): log 13. -/
def Obligations.WriteSinglePixelStoresThePixel : Prop :=
  ∀ (s : State) (x y color : Word), s.Ready → s.AnswersOk 12 →
    ∃ t, exec (.writeSinglePixel x y color) s = .next t ∧
      t = { s.succeeded 12 (windowEvents s.cfg x y x y ++ commandEvents s.cfg .ramwr ++ dataEvents s.cfg [hi8 color, lo8 color]) with
        pins := { s.pins with dc := .known (dcDataLevel s.cfg) },
        ghost := { s.ghost with
          xs := .known x, xe := .known x, ys := .known y, ye := .known y, wptr := .unknown, ramwrOpen := .known true,
          ram := if sixteenBit s.ghost.colmod then s.ghost.ram.writePixel x y color else [] } } ∧
      (sixteenBit s.ghost.colmod = true → x.toNat < s.cfg.panelW → y.toNat < s.cfg.panelH → t.pixel x y = .known color) ∧
      (sixteenBit s.ghost.colmod = true → ∀ col row, (col, row) ≠ (x, y) → t.pixel col row = s.pixel col row) ∧
      (∀ col row : Word, s.cfg.panelW ≤ col.toNat ∨ s.cfg.panelH ≤ row.toNat → t.pixel col row = .unknown)

/-- 42_pixel_write R120 corner case 3 (the document's property V6), under every behaviour of the collaborators. -/
def Obligations.SinglePixelIsWindowThenPayload : Prop :=
  ∀ (s : State) (x y color : Word),
    let asPayload := (setAddressWindow x y x y s).andThen (sendCommand .ramwr (some [hi8 color, lo8 color]))
    (writeSinglePixel x y color s).why = asPayload.why ∧
    (writeSinglePixel x y color s).state.trace = asPayload.state.trace ∧
    (writeSinglePixel x y color s).state.pins = asPayload.state.pins ∧
    (writeSinglePixel x y color s).state.env = asPayload.state.env

/-- 42_pixel_write R121, R123: the stream's events, one data phase per colour whatever the rectangle, and its result. -/
def Obligations.WritePixelStreamSendsEveryColour : Prop :=
  ∀ (s : State) (colStart rowStart colEnd rowEnd : Word) (colors : List Word), s.Ready →
    colStart ≤ colEnd → rowStart ≤ rowEnd → s.AnswersOk (12 + 2 * colors.length) → s.cfg.emptyParamsDataPhase = false →
    ∃ g, exec (.writePixelStream colStart rowStart colEnd rowEnd colors) s = .next
      { s.succeeded (10 + 2 * colors.length)
          (windowEvents s.cfg colStart rowStart colEnd rowEnd ++ commandEvents s.cfg .ramwr ++
            colors.flatMap (fun c => dataEvents s.cfg [hi8 c, lo8 c])) with
        pins := { s.pins with dc := .known (if colors.isEmpty then s.cfg.dcCmdLevel else dcDataLevel s.cfg) }, ghost := g } ∧
      g.xs = .known colStart ∧ g.xe = .known colEnd ∧ g.ys = .known rowStart ∧ g.ye = .known rowEnd ∧
      g.ramwrOpen = .known true

/-- 20_memory R62, 42_pixel_write R121, R123: colour `k` of a stream no longer than its rectangle lands at column
`colStart + k mod W`, row `rowStart + k div W`, and no other byte of the frame memory changes. The premise on the pixel format is R62's. -/
def Obligations.StreamFillsTheWindowRowMajor : Prop :=
  ∀ (s : State) (colStart rowStart colEnd rowEnd : Word) (colors : List Word), s.Ready →
    colStart ≤ colEnd → rowStart ≤ rowEnd → colors.length ≤ pixelCount colStart rowStart colEnd rowEnd →
    s.AnswersOk (12 + 2 * colors.length) → sixteenBit s.ghost.colmod = true →
    ∃ t, exec (.writePixelStream colStart rowStart colEnd rowEnd colors) s = .next t ∧
      (∀ (k : Nat) (hk : k < colors.length),
        t.ghost.ram.readPixel
          (colStart + BitVec.ofNat 16 (k % (colEnd.toNat - colStart.toNat + 1)))
          (rowStart + BitVec.ofNat 16 (k / (colEnd.toNat - colStart.toNat + 1))) = .known colors[k]) ∧
      (∀ a : Nat, (∀ k < colors.length,
          let p := pixelAddr (colStart + BitVec.ofNat 16 (k % (colEnd.toNat - colStart.toNat + 1)))
            (rowStart + BitVec.ofNat 16 (k / (colEnd.toNat - colStart.toNat + 1)))
          a ≠ p ∧ a ≠ p + 1) →
        t.ghost.ram.readByte a = s.ghost.ram.readByte a)

/-- 20_memory R62, 92_eei_decisions D26, 93 U4: after a colour past the rectangle's last pixel no pixel is known. The premise on the pixel
format is R62's. -/
def Obligations.ExcessColourForgetsTheFrameMemory : Prop :=
  ∀ (s : State) (colStart rowStart colEnd rowEnd : Word) (colors : List Word), s.Ready →
    colStart ≤ colEnd → rowStart ≤ rowEnd → pixelCount colStart rowStart colEnd rowEnd < colors.length →
    s.AnswersOk (12 + 2 * colors.length) → sixteenBit s.ghost.colmod = true →
    ∃ t, exec (.writePixelStream colStart rowStart colEnd rowEnd colors) s = .next t ∧
      t.ghost.wptr = .unknown ∧ ∀ col row, t.ghost.ram.readPixel col row = .unknown

/-- 42_pixel_write R121 corner case 3: a stream of one colour into a one-pixel window is write_single_pixel, in every state and environment. -/
def Obligations.StreamOfOneColourIsSinglePixel : Prop :=
  ∀ (s : State) (x y color : Word), s.cfg.emptyParamsDataPhase = false →
    exec (.writePixelStream x y x y [color]) s = exec (.writeSinglePixel x y color) s

/-- 60_exceptions R189, 42_pixel_write R124: a pixel write that fails after its first call leaves the addressing state unknown.
That the first call decides whether a byte was sent is log 15; that a `RAMWR` frame cut short fails as a pixel write does is log 9. -/
def Obligations.FailedPixelWriteLosesTheAddressing : Prop :=
  ∀ (s t : State) (i : Instr) (e : Err),
    ((∃ x y color, i = .writeSinglePixel x y color) ∨
     (∃ colStart rowStart colEnd rowEnd colors, i = .writePixelStream colStart rowStart colEnd rowEnd colors) ∨
     (∃ colors, i = .ramwr colors)) →
    s.answer = .ok → exec i s = .next t → t.results = s.results ++ [⟨some e, none⟩] →
    e ≠ .invalidColumnAddress → e ≠ .invalidRowAddress →
    t.ghost.xs = .unknown ∧ t.ghost.xe = .unknown ∧ t.ghost.ys = .unknown ∧ t.ghost.ye = .unknown ∧
    t.ghost.wptr = .unknown ∧ t.ghost.ramwrOpen = .unknown

/-- 42_pixel_write R124, 60_exceptions R189 (V48): when the bus write of pixel `k` fails, the pixels before it are written,
it is unknown, and no other byte changes. -/
def Obligations.PixelsBeforeAFailureAreWritten : Prop :=
  ∀ (s : State) (colStart rowStart colEnd rowEnd : Word) (colors : List Word) (k : Nat) (e : ErrorValue) (rest : List Answer),
    s.Ready → colStart ≤ colEnd → rowStart ≤ rowEnd → colors.length ≤ pixelCount colStart rowStart colEnd rowEnd →
    s.cfg.emptyParamsDataPhase = false → k < colors.length →
    s.env = List.replicate (11 + 2 * k) .ok ++ .fail e :: rest → sixteenBit s.ghost.colmod = true →
    ∃ t, exec (.writePixelStream colStart rowStart colEnd rowEnd colors) s = .next t ∧
      t.results = s.results ++ [⟨some (.busError e), none⟩] ∧
      (∀ (j : Nat) (hj : j < colors.length),
        t.ghost.ram.readPixel
          (colStart + BitVec.ofNat 16 (j % (colEnd.toNat - colStart.toNat + 1)))
          (rowStart + BitVec.ofNat 16 (j / (colEnd.toNat - colStart.toNat + 1))) =
        if j < k then .known colors[j] else if j = k then .unknown
        else s.ghost.ram.readPixel
          (colStart + BitVec.ofNat 16 (j % (colEnd.toNat - colStart.toNat + 1)))
          (rowStart + BitVec.ofNat 16 (j / (colEnd.toNat - colStart.toNat + 1)))) ∧
      (∀ a : Nat, (∀ j ≤ k,
          let p := pixelAddr (colStart + BitVec.ofNat 16 (j % (colEnd.toNat - colStart.toNat + 1)))
            (rowStart + BitVec.ofNat 16 (j / (colEnd.toNat - colStart.toNat + 1)))
          a ≠ p ∧ a ≠ p + 1) →
        t.ghost.ram.readByte a = s.ghost.ram.readByte a)

/-! ## Resets, power, modes -/

/-- 43_lifecycle_power R133: the reset pulse, and a failing pin call at each of its three places. -/
def Obligations.HardResetOutcomes : Prop :=
  (∀ (cfg : Config) (r : Req), cfg.opsel = Config.default.opsel → r.sel = 0x06#8 → decode cfg (.req r) = .ok .hardReset) ∧
  Config.default.tRstHigh1 = 1 ∧ Config.default.tRstLow = 1 ∧ Config.default.tRstHigh2 = 120 ∧
  ∀ s : State, s.Ready →
    (s.AnswersOk 3 → exec .hardReset s = .next
      { s.succeeded 3 [.pin .rst .high .ok, .delay s.cfg.tRstHigh1, .pin .rst .low .ok, .delay s.cfg.tRstLow,
          .pin .rst .high .ok, .delay s.cfg.tRstHigh2] with
        pins := { s.pins with rst := .known .high }, ghost := Ghost.forget .poweredReset }) ∧
    (∀ e rest, s.env = .fail e :: rest → exec .hardReset s = .next
      { s.failed 1 [.pin .rst .high (.fail e)] (.pinError e) with
        pins := { s.pins with rst := .unknown }, ghost := Ghost.forget .unspecified }) ∧
    (∀ e rest, s.env = .ok :: .fail e :: rest → exec .hardReset s = .next
      { s.failed 2 [.pin .rst .high .ok, .delay s.cfg.tRstHigh1, .pin .rst .low (.fail e)] (.pinError e) with
        pins := { s.pins with rst := .unknown }, ghost := Ghost.forget .unspecified }) ∧
    (∀ e rest, s.env = .ok :: .ok :: .fail e :: rest → exec .hardReset s = .next
      { s.failed 3 [.pin .rst .high .ok, .delay s.cfg.tRstHigh1, .pin .rst .low .ok, .delay s.cfg.tRstLow,
          .pin .rst .high (.fail e)] (.pinError e) with
        pins := { s.pins with rst := .unknown }, ghost := Ghost.forget .unspecified })

/-- 43_lifecycle_power R134, R151: soft reset; after a failing bus call nothing is known of the controller. -/
def Obligations.SoftResetOutcomes : Prop :=
  (∀ (cfg : Config) (r : Req), cfg.opsel = Config.default.opsel → r.sel = 0x07#8 → decode cfg (.req r) = .ok .softReset) ∧
  Config.default.tSwreset = 150 ∧
  SendsOneOpcode .softReset .swreset (fun cfg => [.delay cfg.tSwreset])
    (fun g => Ghost.forget (if g.power = .poweredReset then .registersDefault else .unspecified))
    (fun _ => Ghost.forget .unspecified)

/-- 43_lifecycle_power R135, R136, R151, R152: sleep out and sleep in change the power state of the controller and nothing else (log 20, PRESUMED,
unsafe), the stream flag too staying as it was (D15 (d), taken over 20_memory R62's "any other command byte": log 38). After a failing bus
call the power state is Unspecified and the rest as it was. -/
def Obligations.SleepOutcomes : Prop :=
  (∀ (cfg : Config) (r : Req), cfg.opsel = Config.default.opsel → r.sel = 0x08#8 → decode cfg (.req r) = .ok .sleepOut) ∧
  (∀ (cfg : Config) (r : Req), cfg.opsel = Config.default.opsel → r.sel = 0x09#8 → decode cfg (.req r) = .ok .sleepIn) ∧
  Config.default.tSlpout = 500 ∧ Config.default.tSlpin = 5 ∧
  SendsOneOpcode .sleepOut .slpout (fun cfg => [.delay cfg.tSlpout])
    (fun g => { g with power := if g.power = .registersDefault ∨ g.power = .sleeping then .awake else .unspecified })
    (fun g => { g with power := .unspecified }) ∧
  SendsOneOpcode .sleepIn .slpin (fun cfg => [.delay cfg.tSlpin])
    (fun g => { g with power := if g.power = .awake ∨ g.power = .displaying then .sleeping else .unspecified })
    (fun g => { g with power := .unspecified })

/-- 43_lifecycle_power R148, R139 to R146, R151: the eight parameterless mode commands. What display_on does to a power state other than
Awake and Displaying is 10_state R34's table; that the stream flag is Unknown after a failing bus call is log 14. -/
def Obligations.ModeCommandOutcomes : Prop :=
  (∀ (cfg : Config) (r : Req), cfg.opsel = Config.default.opsel →
    (r.sel = 0x0C#8 → decode cfg (.req r) = .ok .displayOn) ∧ (r.sel = 0x0D#8 → decode cfg (.req r) = .ok .displayOff) ∧
    (r.sel = 0x0E#8 → decode cfg (.req r) = .ok .inversionOn) ∧ (r.sel = 0x0F#8 → decode cfg (.req r) = .ok .inversionOff) ∧
    (r.sel = 0x10#8 → decode cfg (.req r) = .ok .partialDisplayMode) ∧ (r.sel = 0x11#8 → decode cfg (.req r) = .ok .normalMode) ∧
    (r.sel = 0x12#8 → decode cfg (.req r) = .ok .idleOn) ∧ (r.sel = 0x13#8 → decode cfg (.req r) = .ok .idleOff)) ∧
  SendsOneOpcode .displayOn .dispon (fun _ => [])
    (fun g => { g with power := if g.power = .awake ∨ g.power = .displaying then .displaying else .unspecified,
                       ramwrOpen := .known false })
    (fun g => { g with power := .unspecified, ramwrOpen := .unknown }) ∧
  SendsOneOpcode .displayOff .dispoff (fun _ => []) (fun g => { g with power := .unspecified, ramwrOpen := .known false })
    (fun g => { g with power := .unspecified, ramwrOpen := .unknown }) ∧
  SendsOneOpcode .inversionOn .invon (fun _ => []) (fun g => { g with inversion := .known .on, ramwrOpen := .known false })
    (fun g => { g with inversion := .unknown, ramwrOpen := .unknown }) ∧
  SendsOneOpcode .inversionOff .invoff (fun _ => []) (fun g => { g with inversion := .known .off, ramwrOpen := .known false })
    (fun g => { g with inversion := .unknown, ramwrOpen := .unknown }) ∧
  SendsOneOpcode .partialDisplayMode .ptlon (fun _ => []) (fun g => { g with region := .known .partialArea, ramwrOpen := .known false })
    (fun g => { g with region := .unknown, ramwrOpen := .unknown }) ∧
  SendsOneOpcode .normalMode .noron (fun _ => []) (fun g => { g with region := .known .normal, ramwrOpen := .known false })
    (fun g => { g with region := .unknown, ramwrOpen := .unknown }) ∧
  SendsOneOpcode .idleOn .idmon (fun _ => []) (fun g => { g with idle := .known .on, ramwrOpen := .known false })
    (fun g => { g with idle := .unknown, ramwrOpen := .unknown }) ∧
  SendsOneOpcode .idleOff .idmoff (fun _ => []) (fun g => { g with idle := .known .off, ramwrOpen := .known false })
    (fun g => { g with idle := .unknown, ramwrOpen := .unknown })

/-- 43_lifecycle_power R137, R138: the two configuration registers. -/
def Obligations.ConfigurationRegistersAreWritten : Prop :=
  Config.default.tColmod = 10 ∧
  (∀ (s : State) (format : Byte), s.Ready → s.AnswersOk 4 → format ∈ s.cfg.colmodSet →
    exec (.colorMode format) s = .next
      { s.succeeded 4 (frameEvents s.cfg .colmod [format] ++ [.delay s.cfg.tColmod]) with
        pins := { s.pins with dc := .known (dcDataLevel s.cfg) },
        ghost := { s.ghost with colmod := .known format, ramwrOpen := .known false } }) ∧
  (∀ (s : State) (format : Byte), format ∉ s.cfg.colmodSet → exec (.colorMode format) s = .refused (.pixelFormat format)) ∧
  (∀ o : Orientation, SendsOneFrame (.memoryAccessControl o) .madctl (fun cfg => [encodeMadctl cfg.madctlBit o]) []
    (fun cfg g => { g with madctl := .known (encodeMadctl cfg.madctlBit o), ramwrOpen := .known false }))

/-- 43_lifecycle_power R151, 60_exceptions R189, 40_framer R104: a frame with parameters cut at its second, third or fourth call leaves the
register it would have written Unknown, at its first call everything as it was, and makes no delay (V39c). That the stream flag is
Unknown while the opcode is in doubt is log 14; the four bare frames are log 9. -/
def Obligations.CutFrameLeavesItsRegisterUnknown : Prop :=
  (∀ format : Byte, CutsOneFrame (.colorMode format) .colmod (fun _ => [format]) (fun g => { g with colmod := .unknown })) ∧
  (∀ o : Orientation, CutsOneFrame (.memoryAccessControl o) .madctl (fun cfg => [encodeMadctl cfg.madctlBit o])
    (fun g => { g with madctl := .unknown })) ∧
  (∀ format : Byte, CutsOneFrame (.colmod format) .colmod (fun _ => [format]) (fun g => { g with colmod := .unknown })) ∧
  (∀ o : Orientation, CutsOneFrame (.madctl o) .madctl (fun cfg => [encodeMadctl cfg.madctlBit o])
    (fun g => { g with madctl := .unknown })) ∧
  (∀ start last : Word, CutsOneFrame (.caset start last) .caset (fun _ => [hi8 start, lo8 start, hi8 last, lo8 last])
    (fun g => { g with xs := .unknown, xe := .unknown })) ∧
  (∀ start last : Word, CutsOneFrame (.raset start last) .raset (fun _ => [hi8 start, lo8 start, hi8 last, lo8 last])
    (fun g => { g with ys := .unknown, ye := .unknown }))

/-! ## Lifecycle and bring-up -/

/-- 43_lifecycle_power R130: attach, with and without a chip-select pin, and when its pin call fails. -/
def Obligations.AttachOutcomes : Prop :=
  (∀ (cfg : Config) (r : Req), cfg.opsel = Config.default.opsel → r.sel = 0x15#8 →
    decode cfg (.req r) = .ok (.attach r.side.bus
    { dc := r.side.dc, rst := r.side.rst, cs := if r.a.getLsbD 0 then some r.side.cs else none })) ∧
  ∀ (s : State) (bus : Handle) (pins : PinBundle), s.Unattached →
    (pins.cs = none ∨ s.cfg.csLowOnAttach = false → exec (.attach bus pins) s = .next
      { s.succeeded 0 [] with
        life := .attached, res := some ⟨bus, pins⟩, pins := ⟨.unknown, .unknown, .unknown⟩ }) ∧
    (pins.cs ≠ none → s.cfg.csLowOnAttach = true → s.AnswersOk 1 → exec (.attach bus pins) s = .next
      { s.succeeded 1 [.pin .cs .low .ok] with
        life := .attached, res := some ⟨bus, pins⟩, pins := ⟨.unknown, .unknown, .known .low⟩ }) ∧
    (pins.cs ≠ none → s.cfg.csLowOnAttach = true → ∀ e rest, s.env = .fail e :: rest → exec (.attach bus pins) s = .next
      { s.failed 1 [.pin .cs .low (.fail e)] (.pinError e) with
        life := .attached, res := some ⟨bus, pins⟩, pins := ⟨.unknown, .unknown, .unknown⟩ })

/-- 43_lifecycle_power R131: attach_config is attach with the configuration's pins, in every state; and it runs from a detached block.
How a request presents the configuration is log 29. -/
def Obligations.AttachConfigIsAttach : Prop :=
  (∀ (cfg : Config) (r : Req), cfg.opsel = Config.default.opsel → r.sel = 0x16#8 → decode cfg (.req r) = .ok
    (.attachConfig r.side.bus
      { dc := r.side.dc, rst := r.side.rst, cs := if r.side.configHasCs then some r.side.cs else none })) ∧
  (∀ (s : State) (bus : Handle) (config : PinBundle), exec (.attachConfig bus config) s = exec (.attach bus config) s) ∧
  (∀ (s : State) (bus : Handle) (config : PinBundle), s.Unattached → s.AnswersOk 1 →
    ∃ t, exec (.attachConfig bus config) s = .next t ∧ t.life = .attached ∧ t.res = some ⟨bus, config⟩)

/-- 43_lifecycle_power R132, D17: release. What is kept of the controller is 70_reset_and_hazards R211's two readings (log 17);
whether a failed release hands the resources back is a free value (log 18). -/
def Obligations.ReleaseOutcomes : Prop :=
  ∀ s : State, s.Ready →
    let ghost := if s.hostUsesBus then Ghost.forget .unknown else s.ghost
    (s.hasCs = false → exec .release s = .next
      { s.succeeded 0 [] s.res with life := .detached, res := none, ghost := ghost }) ∧
    (s.hasCs = true → s.AnswersOk 1 → exec .release s = .next
      { s.succeeded 1 [.pin .cs .high .ok] s.res with
        life := .detached, res := none, ghost := ghost, pins := { s.pins with cs := .known .high } }) ∧
    (s.hasCs = true → ∀ e rest, s.env = .fail e :: rest → ∃ back, exec .release s = .next
      { s.failed 1 [.pin .cs .high (.fail e)] (.pinError e) with
        life := .detached, res := none, ghost := ghost, pins := { s.pins with cs := .unknown },
        results := s.results ++ [⟨some (.pinError e), back⟩] } ∧ (back = s.res ∨ back = none))

/-- 43_lifecycle_power R147, 70_reset_and_hazards R213: the bring-up sequence and the state it leaves, from any ghost state.
The 35 events are written out for the spec's default parameters (logs 1 to 4, 26). -/
def Obligations.InitializeBringsTheDisplayUp : Prop :=
  initializeEvents Config.default =
    [.pin .rst .high .ok, .delay 1, .pin .rst .low .ok, .delay 1, .pin .rst .high .ok, .delay 120,
     .pin .dc .low .ok, .bus [0x01] .ok, .delay 150, .pin .dc .low .ok, .bus [0x11] .ok, .delay 500,
     .pin .dc .low .ok, .bus [0x3A] .ok, .pin .dc .high .ok, .bus [0x55] .ok, .delay 10,
     .pin .dc .low .ok, .bus [0x36] .ok, .pin .dc .high .ok, .bus [0x00] .ok,
     .pin .dc .low .ok, .bus [0x2A] .ok, .pin .dc .high .ok, .bus [0x00, 0x00, 0x00, 0xF0] .ok,
     .pin .dc .low .ok, .bus [0x2B] .ok, .pin .dc .high .ok, .bus [0x00, 0x00, 0x00, 0xF0] .ok,
     .pin .dc .low .ok, .bus [0x21] .ok, .pin .dc .low .ok, .bus [0x13] .ok, .pin .dc .low .ok, .bus [0x29] .ok] ∧
  ∀ s : State, s.Ready → s.AnswersOk 29 → s.cfg.Ok →
    exec .initializePanel s = .next
      { s.succeeded 29 (initializeEvents s.cfg) with
        pins := { s.pins with rst := .known .high, dc := .known s.cfg.dcCmdLevel },
        ghost := { power := .displaying, region := .known .normal, inversion := .known .on, idle := .unknown,
                   xs := .known 0, xe := .known s.cfg.initColEnd, ys := .known 0, ye := .known s.cfg.initRowEnd,
                   madctl := .known s.cfg.initMadctl, colmod := .known s.cfg.initColmod,
                   wptr := .unknown, ramwrOpen := .known false, ram := [] } }

/-- 43_lifecycle_power R147 and 95_test_vectors V1, under the named assumption that the parameters are the spec's defaults (R78): the
frames a receiver reads from the wire. -/
def Obligations.InitializeWireFrames : Prop :=
  ∀ (s : State) (cut : Nat → Nat), s.Ready → s.AnswersOk 29 → s.cfg = Config.default →
    ∃ t evs, exec .initializePanel s = .next t ∧ t.trace = s.trace ++ evs ∧
      wireFrames s.cfg (wire cut evs) =
        [⟨0x01, []⟩, ⟨0x11, []⟩, ⟨0x3A, [0x55]⟩, ⟨0x36, [0x00]⟩, ⟨0x2A, [0x00, 0x00, 0x00, 0xF0]⟩,
         ⟨0x2B, [0x00, 0x00, 0x00, 0xF0]⟩, ⟨0x21, []⟩, ⟨0x13, []⟩, ⟨0x29, []⟩]

/-! ## The wire frames as instructions (log 9) -/

/-- 30_encoding R71, 40_framer R100: the eleven frames without parameters (log 9); their effects on the controller are 10_state R31, R34, R35
and 20_memory R62, what a failing bus call leaves is 43_lifecycle_power R151 (the stream flag: log 14), that sleep keeps the rest is log 20,
the stream flag among it log 38. -/
def Obligations.OpcodeFramesComplete : Prop :=
  SendsOneOpcode .swreset .swreset (fun _ => [])
    (fun g => Ghost.forget (if g.power = .poweredReset then .registersDefault else .unspecified))
    (fun _ => Ghost.forget .unspecified) ∧
  SendsOneOpcode .slpout .slpout (fun _ => [])
    (fun g => { g with power := if g.power = .registersDefault ∨ g.power = .sleeping then .awake else .unspecified })
    (fun g => { g with power := .unspecified }) ∧
  SendsOneOpcode .slpin .slpin (fun _ => [])
    (fun g => { g with power := if g.power = .awake ∨ g.power = .displaying then .sleeping else .unspecified })
    (fun g => { g with power := .unspecified }) ∧
  SendsOneOpcode .dispon .dispon (fun _ => [])
    (fun g => { g with power := if g.power = .awake ∨ g.power = .displaying then .displaying else .unspecified,
                       ramwrOpen := .known false })
    (fun g => { g with power := .unspecified, ramwrOpen := .unknown }) ∧
  SendsOneOpcode .dispoff .dispoff (fun _ => []) (fun g => { g with power := .unspecified, ramwrOpen := .known false })
    (fun g => { g with power := .unspecified, ramwrOpen := .unknown }) ∧
  SendsOneOpcode .invon .invon (fun _ => []) (fun g => { g with inversion := .known .on, ramwrOpen := .known false })
    (fun g => { g with inversion := .unknown, ramwrOpen := .unknown }) ∧
  SendsOneOpcode .invoff .invoff (fun _ => []) (fun g => { g with inversion := .known .off, ramwrOpen := .known false })
    (fun g => { g with inversion := .unknown, ramwrOpen := .unknown }) ∧
  SendsOneOpcode .ptlon .ptlon (fun _ => []) (fun g => { g with region := .known .partialArea, ramwrOpen := .known false })
    (fun g => { g with region := .unknown, ramwrOpen := .unknown }) ∧
  SendsOneOpcode .noron .noron (fun _ => []) (fun g => { g with region := .known .normal, ramwrOpen := .known false })
    (fun g => { g with region := .unknown, ramwrOpen := .unknown }) ∧
  SendsOneOpcode .idmon .idmon (fun _ => []) (fun g => { g with idle := .known .on, ramwrOpen := .known false })
    (fun g => { g with idle := .unknown, ramwrOpen := .unknown }) ∧
  SendsOneOpcode .idmoff .idmoff (fun _ => []) (fun g => { g with idle := .known .off, ramwrOpen := .known false })
    (fun g => { g with idle := .unknown, ramwrOpen := .unknown })

/-- 30_encoding R72, R73, 40_framer R100: the frames with parameters; the framer compares no coordinates (R100 corner case 5).
As instructions they are log 9; the registers they write are 10_state R27 to R30 and 20_memory R62, the refused bytes R79 and R195. -/
def Obligations.ParameterFramesComplete : Prop :=
  (∀ start last : Word, SendsOneFrame (.caset start last) .caset (fun _ => [hi8 start, lo8 start, hi8 last, lo8 last]) []
    (fun _ g => { g with xs := .known start, xe := .known last, ramwrOpen := .known false })) ∧
  (∀ start last : Word, SendsOneFrame (.raset start last) .raset (fun _ => [hi8 start, lo8 start, hi8 last, lo8 last]) []
    (fun _ g => { g with ys := .known start, ye := .known last, ramwrOpen := .known false })) ∧
  (∀ o : Orientation, SendsOneFrame (.madctl o) .madctl (fun cfg => [encodeMadctl cfg.madctlBit o]) []
    (fun cfg g => { g with madctl := .known (encodeMadctl cfg.madctlBit o), ramwrOpen := .known false })) ∧
  (∀ (s : State) (format : Byte), s.Ready → s.AnswersOk 4 → format ∈ s.cfg.colmodSet →
    exec (.colmod format) s = .next
      { s.succeeded 4 (frameEvents s.cfg .colmod [format]) with
        pins := { s.pins with dc := .known (dcDataLevel s.cfg) },
        ghost := { s.ghost with colmod := .known format, ramwrOpen := .known false } }) ∧
  (∀ (s : State) (format : Byte), format ∉ s.cfg.colmodSet → exec (.colmod format) s = .refused (.pixelFormat format))

/-- 30_encoding R74, 20_memory R62, 70_reset_and_hazards R215: the pixel stream frame into a window set before, where its pixels lie row-major; with a
window register unknown, they are at unknown places. -/
def Obligations.PixelStreamFrameCompletes : Prop :=
  ∀ (s : State) (colors : List Word), s.Ready → s.AnswersOk (2 + 2 * colors.length) →
    ∃ t, exec (.ramwr colors) s = .next t ∧
      t.trace = s.trace ++ commandEvents s.cfg .ramwr ++ colors.flatMap (fun c => dataEvents s.cfg [hi8 c, lo8 c]) ∧
      t.results = s.results ++ [⟨none, none⟩] ∧ t.ghost.ramwrOpen = .known true ∧
      t.env = s.env.drop (2 + 2 * colors.length) ∧
      (s.ghost.windowStart = .unknown → t.ghost.wptr = .unknown ∧ (colors ≠ [] → ∀ col row, t.ghost.ram.readPixel col row = .unknown)) ∧
      (colors = [] → t.ghost.wptr = s.ghost.windowStart ∧ t.ghost.ram = s.ghost.ram) ∧
      (∀ colStart rowStart colEnd rowEnd : Word, s.ghost.xs = .known colStart → s.ghost.ys = .known rowStart →
        s.ghost.xe = .known colEnd → s.ghost.ye = .known rowEnd → colStart ≤ colEnd → rowStart ≤ rowEnd →
        sixteenBit s.ghost.colmod = true → colors.length ≤ pixelCount colStart rowStart colEnd rowEnd →
        ∀ (k : Nat) (hk : k < colors.length),
          t.ghost.ram.readPixel
            (colStart + BitVec.ofNat 16 (k % (colEnd.toNat - colStart.toNat + 1)))
            (rowStart + BitVec.ofNat 16 (k / (colEnd.toNat - colStart.toNat + 1))) = .known colors[k])

/-! ## Whole-machine rules -/

/-- 00_scope R12, 60_exceptions R186, R188, R192: for every well-formed instruction and every behaviour of the collaborators, what is
observed is the instruction's list of calls, cut short at the first that does not succeed, with the result that follows from it. A call
that never returns is 70_reset_and_hazards R218; the chain and the list of results are the model's fields (log 8). The lists of calls are those of
40_framer, 41_addressing, 42_pixel_write and 43_lifecycle_power; the sixteen frames as instructions are log 9. -/
def Obligations.EveryOperationFollowsItsCalls : Prop :=
  ∀ (i : Instr) (s : State), s.busy = false → s.life = lifeNeeded i → i.wellFormed s.cfg = true →
    ∃ t, exec i s = .next t ∧
      t.trace = s.trace ++ (follow (plan s i).err (plan s i).events s.env).1 ∧
      match (follow (plan s i).err (plan s i).events s.env).2 with
      | none => t.busy = false ∧ t.results = s.results ++ [⟨none, handedBack s i⟩] ∧ t.chain = s.chain
      | some (.err e) => t.busy = false ∧ t.results = s.results ++ [⟨some e, handedBackOnError s i⟩] ∧ t.chain = []
      | some .hang => t.busy = true ∧ t.results = s.results ∧ t.chain = s.chain

/-- 60_exceptions R188, 10_state R32: errors are precise in program order, and the trace is only appended to.
The last clause is a call that never returns (70_reset_and_hazards R218): that the operation then ends in a busy next state with no result and no
event for that call is the model's choice (log 6). -/
def Obligations.ErrorsArePreciseInTheTrace : Prop :=
  ∀ (i : Instr) (s t : State), exec i s = .next t → ∃ evs, t.trace = s.trace ++ evs ∧
    (∀ e back, t.results = s.results ++ [⟨some (.pinError e), back⟩] →
      ∃ before p l, evs = before ++ [.pin p l (.fail e)] ∧ before.all Event.succeeded = true) ∧
    (∀ e back, t.results = s.results ++ [⟨some (.busError e), back⟩] →
      ∃ before bs, evs = before ++ [.bus bs (.fail e)] ∧ before.all Event.succeeded = true) ∧
    (∀ r, t.results = s.results ++ [r] →
      r.err = none ∨ r.err = some .invalidColumnAddress ∨ r.err = some .invalidRowAddress → evs.all Event.succeeded = true) ∧
    (t.busy = true → t.results = s.results ∧ evs.all Event.succeeded = true)

/-- 40_framer R102, R103, 30_encoding R79: in what any instruction appends, every bus write stands in its phase. -/
def Obligations.EveryBusWriteStandsInItsPhase : Prop :=
  ∀ (i : Instr) (s t : State), exec i s = .next t → ∃ evs, t.trace = s.trace ++ evs ∧ Phased s.cfg evs

/-- 43_lifecycle_power R150, 00_scope R11: the only delays there are. -/
def Obligations.OnlyTheTablesDelaysOccur : Prop :=
  (∀ (i : Instr) (s t : State), exec i s = .next t → ∃ evs, t.trace = s.trace ++ evs ∧
    ∀ ms, Event.delay ms ∈ evs → ms ∈ delayTable s.cfg) ∧
  (∀ ms, ms ∈ delayTable Config.default ↔ ms ∈ [1, 5, 10, 120, 150, 500])

/-- 10_state R20, R23, R32: no rule of the block reads the ghost controller, the pin shadows or the trace. -/
def Obligations.ShadowsAndTraceAreNeverRead : Prop :=
  ∀ (i : Instr) (s : State) (g : Ghost) (ps : Pins) (tr : List Event),
    match exec i s, exec i { s with ghost := g, pins := ps, trace := tr } with
    | .next t, .next t' =>
      t' = { t with ghost := t'.ghost, pins := t'.pins, trace := t'.trace } ∧
      ∃ evs, t.trace = s.trace ++ evs ∧ t'.trace = tr ++ evs
    | .refused why, .refused why' => why = why'
    | _, _ => False

/-- 10_state R23: which operations drive the reset and chip-select pins. -/
def Obligations.PinsAreDrivenByTheirOwners : Prop :=
  ∀ (i : Instr) (s t : State), exec i s = .next t →
    (t.pins.rst = s.pins.rst ∨ i = .hardReset ∨ i = .initializePanel ∨
      ∃ bus pins, (i = .attach bus pins ∨ i = .attachConfig bus pins) ∧ t.pins.rst = .unknown) ∧
    (t.pins.cs = s.pins.cs ∨ (i = .release ∧ s.hasCs = true) ∨
      ∃ bus pins, (i = .attach bus pins ∨ i = .attachConfig bus pins) ∧ (pins.cs = none → t.pins.cs = .unknown)) ∧
    (∃ evs, t.trace = s.trace ++ evs ∧
      (∀ l r, Event.pin .rst l r ∈ evs → i = .hardReset ∨ i = .initializePanel) ∧
      (∀ l r, Event.pin .cs l r ∈ evs → i = .release ∨ ∃ bus pins, i = .attach bus pins ∨ i = .attachConfig bus pins))

/-- 70_reset_and_hazards R218, 93 U5: a call that never returns leaves the block busy for good, and no later request has a step.
That the operation itself then ends in a next state, with no event for that call and no result, is the model's choice (log 6). -/
def Obligations.HungBlockTakesNoMoreRequests : Prop :=
  (∀ (i : Instr) (s t : State), exec i s = .next t → t.busy = true →
    (∀ j : Instr, ∃ why, exec j t = .refused why) ∧ (∀ u, step t ≠ .next u)) ∧
  (∀ (s : State) (rest : List Answer), s.Ready → s.env = .never :: rest →
    ∃ t, exec .displayOn s = .next t ∧ t.busy = true ∧ t.trace = s.trace ∧ t.results = s.results)

/-- The invariant holds at reset (10_state R37). -/
def Obligations.InvariantAtReset : Prop := State.reset.Inv

/-- Every step keeps the invariant, from every state that meets it (10_state R22, R23, R29, R30; 20_memory R50, R62; D2 to D4). -/
def Obligations.InvariantKeptByEveryStep : Prop :=
  ∀ s t : State, s.Inv → step s = .next t → t.Inv

/-- 10_state R27, R28: the request operations keep the window ordered; only a bare frame, which nothing checks (log 9), may break it. -/
def Obligations.WindowStaysOrderedUnderRequests : Prop :=
  ∀ (r : Req) (i : Instr) (s t : State), decode s.cfg (.req r) = .ok i → exec i s = .next t →
    let ordered (g : Ghost) : Prop :=
      (∀ a b, g.xs = .known a → g.xe = .known b → a ≤ b) ∧ (∀ a b, g.ys = .known a → g.ye = .known b → a ≤ b)
    ordered s.ghost → ordered t.ghost

/-! ## Frames: what an instruction leaves unchanged -/

/-- Every instruction but attach, attach_config, release, hard_reset and initialize: only the trace, the answers used up, the result, the chain,
the busy mark, the `DC` shadow and the ghost controller may change (10_state R21 to R23, R36; 43_lifecycle_power, "State written"). -/
def Obligations.HandleOperationsFrame : Prop :=
  ∀ (i : Instr) (s t : State), exec i s = .next t →
    (∀ bus pins, i ≠ .attach bus pins) → (∀ bus pins, i ≠ .attachConfig bus pins) → i ≠ .release → i ≠ .hardReset →
    i ≠ .initializePanel → t = s.handleTouched t

/-- The instructions that send one frame and no pixel change in the controller only the fields their command writes, whatever way they end;
all but the software reset leave every byte of the frame memory as it was (10_state R27 to R31, R34, R35; 43_lifecycle_power R151; 60_exceptions R189).
That the registers and the frame memory survive sleep in and sleep out is the named assumption of R152 and G7 (log 20, PRESUMED, unsafe);
that the stream flag survives them is D15 (d) taken over 20_memory R62 (log 38). -/
def Obligations.OneFrameOperationsFrame : Prop :=
  ∀ (i : Instr) (cmd : Cmd) (s t : State), oneCommand i = some cmd → exec i s = .next t →
    t.ghost = s.ghost.touchedBy cmd t.ghost ∧
    (cmd ≠ .swreset → ∀ a, t.ghost.ram.readByte a = s.ghost.ram.readByte a)

/-- set_address_window changes in the controller only the window and the stream flag; the pixel writes and the pixel stream frame leave the power state,
the modes and the two configuration registers as they were; each whatever way it ends (41_addressing R112; 42_pixel_write R120, R121; 10_state R34). -/
def Obligations.WindowAndPixelOperationsFrame : Prop :=
  ∀ (i : Instr) (s t : State), exec i s = .next t →
    ((∃ colStart rowStart colEnd rowEnd, i = .setAddressWindow colStart rowStart colEnd rowEnd) →
      t.ghost = { s.ghost with xs := t.ghost.xs, xe := t.ghost.xe, ys := t.ghost.ys, ye := t.ghost.ye,
                               ramwrOpen := t.ghost.ramwrOpen } ∧
      ∀ a, t.ghost.ram.readByte a = s.ghost.ram.readByte a) ∧
    ((∃ x y color, i = .writeSinglePixel x y color) ∨
     (∃ colStart rowStart colEnd rowEnd colors, i = .writePixelStream colStart rowStart colEnd rowEnd colors) ∨
     (∃ colors, i = .ramwr colors) →
      t.ghost.power = s.ghost.power ∧ t.ghost.region = s.ghost.region ∧ t.ghost.inversion = s.ghost.inversion ∧
      t.ghost.idle = s.ghost.idle ∧ t.ghost.madctl = s.ghost.madctl ∧ t.ghost.colmod = s.ghost.colmod)

/-- The memory frame of write_single_pixel: with a 16-bit pixel format known, every byte but the two of pixel `(x, y)` reads as before, whatever way the
operation ends (20_memory R62, 60_exceptions R189). -/
def Obligations.SinglePixelMemoryFrame : Prop :=
  ∀ (s t : State) (x y color : Word), sixteenBit s.ghost.colmod = true → exec (.writeSinglePixel x y color) s = .next t →
    ∀ a, a ≠ pixelAddr x y → a ≠ pixelAddr x y + 1 → t.ghost.ram.readByte a = s.ghost.ram.readByte a

/-- The memory frame of write_pixel_stream and of the pixel stream frame into a known window: with a 16-bit pixel format known and no more colours than
pixels, every byte outside the window's first `colors.length` pixels reads as before, whatever way the operation ends (20_memory R62, 60_exceptions R189). -/
def Obligations.PixelStreamMemoryFrame : Prop :=
  ∀ (s t : State) (colStart rowStart colEnd rowEnd : Word) (colors : List Word), sixteenBit s.ghost.colmod = true →
    colors.length ≤ pixelCount colStart rowStart colEnd rowEnd →
    (exec (.writePixelStream colStart rowStart colEnd rowEnd colors) s = .next t ∨
      (s.ghost.xs = .known colStart ∧ s.ghost.ys = .known rowStart ∧ s.ghost.xe = .known colEnd ∧ s.ghost.ye = .known rowEnd ∧
        colStart ≤ colEnd ∧ rowStart ≤ rowEnd ∧ exec (.ramwr colors) s = .next t)) →
    ∀ a, (∀ k < colors.length,
        let p := pixelAddr (colStart + BitVec.ofNat 16 (k % (colEnd.toNat - colStart.toNat + 1)))
          (rowStart + BitVec.ofNat 16 (k / (colEnd.toNat - colStart.toNat + 1)))
        a ≠ p ∧ a ≠ p + 1) →
      t.ghost.ram.readByte a = s.ghost.ram.readByte a

/-- The frame of the lifecycle operations and of the two that drive the reset pin: the parameters and the host's liberty never change; attach keeps the controller,
release the `DC` and `RST` shadows and, unless the host may use the bus, the controller; hard reset keeps the resources, the life state and the other pins; initialize keeps
the resources, the life state and the `CS` shadow (43_lifecycle_power R130 to R133, R147; 70_reset_and_hazards R210, R211). -/
def Obligations.LifecycleFrame : Prop :=
  ∀ (i : Instr) (s t : State), exec i s = .next t →
    t.cfg = s.cfg ∧ t.hostUsesBus = s.hostUsesBus ∧
    (∀ bus pins, i = .attach bus pins ∨ i = .attachConfig bus pins → t.ghost = s.ghost) ∧
    (i = .release → t.pins.dc = s.pins.dc ∧ t.pins.rst = s.pins.rst ∧ (s.hostUsesBus = false → t.ghost = s.ghost)) ∧
    (i = .hardReset → t.life = s.life ∧ t.res = s.res ∧ t.pins.dc = s.pins.dc ∧ t.pins.cs = s.pins.cs) ∧
    (i = .initializePanel → t.life = s.life ∧ t.res = s.res ∧ t.pins.cs = s.pins.cs)

/-! ## The wire and the adapter -/

/-- 30_encoding R80, R70: when every call succeeds, a receiver that tells the parts apart by the `DC` level reads whole frames, each of its command's
format. 00_scope R12: the wire trace that forgets the calls which change nothing reads as the same frames (log 37). -/
def Obligations.ReceiverReadsWholeFrames : Prop :=
  (∀ (i : Instr) (s t : State) (cut : Nat → Nat) (back : Option Resources), s.cfg.Ok → exec i s = .next t →
    t.results = s.results ++ [⟨none, back⟩] → ∃ evs, t.trace = s.trace ++ evs ∧
      (wireFrames s.cfg (wire cut evs)).all (frameFits s.cfg) = true) ∧
  (∀ (cfg : Config) (cut : Nat → Nat) (trace : List Event),
    wireFrames cfg (wireSeen cut trace) = wireFrames cfg (wire cut trace))

/-- 44_surface_adapter R170 to R172: a single pixel becomes one write_single_pixel, a filled rectangle one write_pixel_stream over its bounding box
(its ends inclusive: log 34), any other primitive one write_single_pixel per pixel; the chain of requests decodes to those operations in order, and
the advertised size is the panel's. -/
def Obligations.AdapterDrawsThroughPixelWritesOnly : Prop :=
  ∀ cfg : Config, cfg.Ok →
    (∀ x y color : Word, ((Draw.pixel x y color).chain cfg).map (decode cfg) = [.ok (.writeSinglePixel x y color)]) ∧
    (∀ (colStart rowStart colEnd rowEnd : Word) (colors : List Word),
      ((Draw.filled colStart rowStart colEnd rowEnd colors).chain cfg).map (decode cfg) =
        [.ok (.writePixelStream colStart rowStart colEnd rowEnd colors)]) ∧
    (∀ pixels : List (Word × Word × Word),
      ((Draw.perPixel pixels).chain cfg).map (decode cfg) = pixels.map (fun p => .ok (.writeSinglePixel p.1 p.2.1 p.2.2))) ∧
    advertisedSize cfg = (cfg.panelW, cfg.panelH)
end

