-- ==== Sys2Proof/Laws/State.lean ====
section
/-! SUPPORT. One lemma per field per update of the state: no later proof unfolds a record update. -/

namespace Sys2Proof.Machine

@[simp] theorem State.setPin_life (s : State) (p : Pin) (v : Known Level) : (s.setPin p v).life = s.life := rfl
@[simp] theorem State.setPin_res (s : State) (p : Pin) (v : Known Level) : (s.setPin p v).res = s.res := rfl
@[simp] theorem State.setPin_pins (s : State) (p : Pin) (v : Known Level) : (s.setPin p v).pins = s.pins.set p v := rfl
@[simp] theorem State.setPin_busy (s : State) (p : Pin) (v : Known Level) : (s.setPin p v).busy = s.busy := rfl
@[simp] theorem State.setPin_trace (s : State) (p : Pin) (v : Known Level) : (s.setPin p v).trace = s.trace := rfl
@[simp] theorem State.setPin_ghost (s : State) (p : Pin) (v : Known Level) : (s.setPin p v).ghost = s.ghost := rfl
@[simp] theorem State.setPin_cfg (s : State) (p : Pin) (v : Known Level) : (s.setPin p v).cfg = s.cfg := rfl
@[simp] theorem State.setPin_chain (s : State) (p : Pin) (v : Known Level) : (s.setPin p v).chain = s.chain := rfl
@[simp] theorem State.setPin_results (s : State) (p : Pin) (v : Known Level) : (s.setPin p v).results = s.results := rfl
@[simp] theorem State.setPin_env (s : State) (p : Pin) (v : Known Level) : (s.setPin p v).env = s.env := rfl
@[simp] theorem State.setPin_hostUsesBus (s : State) (p : Pin) (v : Known Level) : (s.setPin p v).hostUsesBus = s.hostUsesBus := rfl

@[simp] theorem State.log_life (s : State) (e : Event) : (s.log e).life = s.life := rfl
@[simp] theorem State.log_res (s : State) (e : Event) : (s.log e).res = s.res := rfl
@[simp] theorem State.log_pins (s : State) (e : Event) : (s.log e).pins = s.pins := rfl
@[simp] theorem State.log_busy (s : State) (e : Event) : (s.log e).busy = s.busy := rfl
@[simp] theorem State.log_trace (s : State) (e : Event) : (s.log e).trace = s.trace ++ [e] := rfl
@[simp] theorem State.log_ghost (s : State) (e : Event) : (s.log e).ghost = s.ghost := rfl
@[simp] theorem State.log_cfg (s : State) (e : Event) : (s.log e).cfg = s.cfg := rfl
@[simp] theorem State.log_chain (s : State) (e : Event) : (s.log e).chain = s.chain := rfl
@[simp] theorem State.log_results (s : State) (e : Event) : (s.log e).results = s.results := rfl
@[simp] theorem State.log_env (s : State) (e : Event) : (s.log e).env = s.env := rfl
@[simp] theorem State.log_hostUsesBus (s : State) (e : Event) : (s.log e).hostUsesBus = s.hostUsesBus := rfl

@[simp] theorem State.onGhost_life (s : State) (f : Ghost → Ghost) : (s.onGhost f).life = s.life := rfl
@[simp] theorem State.onGhost_res (s : State) (f : Ghost → Ghost) : (s.onGhost f).res = s.res := rfl
@[simp] theorem State.onGhost_pins (s : State) (f : Ghost → Ghost) : (s.onGhost f).pins = s.pins := rfl
@[simp] theorem State.onGhost_busy (s : State) (f : Ghost → Ghost) : (s.onGhost f).busy = s.busy := rfl
@[simp] theorem State.onGhost_trace (s : State) (f : Ghost → Ghost) : (s.onGhost f).trace = s.trace := rfl
@[simp] theorem State.onGhost_ghost (s : State) (f : Ghost → Ghost) : (s.onGhost f).ghost = f s.ghost := rfl
@[simp] theorem State.onGhost_cfg (s : State) (f : Ghost → Ghost) : (s.onGhost f).cfg = s.cfg := rfl
@[simp] theorem State.onGhost_chain (s : State) (f : Ghost → Ghost) : (s.onGhost f).chain = s.chain := rfl
@[simp] theorem State.onGhost_results (s : State) (f : Ghost → Ghost) : (s.onGhost f).results = s.results := rfl
@[simp] theorem State.onGhost_env (s : State) (f : Ghost → Ghost) : (s.onGhost f).env = s.env := rfl
@[simp] theorem State.onGhost_hostUsesBus (s : State) (f : Ghost → Ghost) : (s.onGhost f).hostUsesBus = s.hostUsesBus := rfl

@[simp] theorem State.answered_life (s : State) : (s.answered).life = s.life := rfl
@[simp] theorem State.answered_res (s : State) : (s.answered).res = s.res := rfl
@[simp] theorem State.answered_pins (s : State) : (s.answered).pins = s.pins := rfl
@[simp] theorem State.answered_busy (s : State) : (s.answered).busy = s.busy := rfl
@[simp] theorem State.answered_trace (s : State) : (s.answered).trace = s.trace := rfl
@[simp] theorem State.answered_ghost (s : State) : (s.answered).ghost = s.ghost := rfl
@[simp] theorem State.answered_cfg (s : State) : (s.answered).cfg = s.cfg := rfl
@[simp] theorem State.answered_chain (s : State) : (s.answered).chain = s.chain := rfl
@[simp] theorem State.answered_results (s : State) : (s.answered).results = s.results := rfl
@[simp] theorem State.answered_env (s : State) : (s.answered).env = s.env.tail := rfl
@[simp] theorem State.answered_hostUsesBus (s : State) : (s.answered).hostUsesBus = s.hostUsesBus := rfl

@[simp] theorem State.accept_life (s : State) : (s.accept).life = s.life := rfl
@[simp] theorem State.accept_res (s : State) : (s.accept).res = s.res := rfl
@[simp] theorem State.accept_pins (s : State) : (s.accept).pins = s.pins := rfl
@[simp] theorem State.accept_busy (s : State) : (s.accept).busy = true := rfl
@[simp] theorem State.accept_trace (s : State) : (s.accept).trace = s.trace := rfl
@[simp] theorem State.accept_ghost (s : State) : (s.accept).ghost = s.ghost := rfl
@[simp] theorem State.accept_cfg (s : State) : (s.accept).cfg = s.cfg := rfl
@[simp] theorem State.accept_chain (s : State) : (s.accept).chain = s.chain := rfl
@[simp] theorem State.accept_results (s : State) : (s.accept).results = s.results := rfl
@[simp] theorem State.accept_env (s : State) : (s.accept).env = s.env := rfl
@[simp] theorem State.accept_hostUsesBus (s : State) : (s.accept).hostUsesBus = s.hostUsesBus := rfl

@[simp] theorem State.returns_life (s : State) (r : Result) : (s.returns r).life = s.life := rfl
@[simp] theorem State.returns_res (s : State) (r : Result) : (s.returns r).res = s.res := rfl
@[simp] theorem State.returns_pins (s : State) (r : Result) : (s.returns r).pins = s.pins := rfl
@[simp] theorem State.returns_busy (s : State) (r : Result) : (s.returns r).busy = false := rfl
@[simp] theorem State.returns_trace (s : State) (r : Result) : (s.returns r).trace = s.trace := rfl
@[simp] theorem State.returns_ghost (s : State) (r : Result) : (s.returns r).ghost = s.ghost := rfl
@[simp] theorem State.returns_cfg (s : State) (r : Result) : (s.returns r).cfg = s.cfg := rfl
@[simp] theorem State.returns_chain (s : State) (r : Result) : (s.returns r).chain = if r.err.isSome then [] else s.chain := rfl
@[simp] theorem State.returns_results (s : State) (r : Result) : (s.returns r).results = s.results ++ [r] := rfl
@[simp] theorem State.returns_env (s : State) (r : Result) : (s.returns r).env = s.env := rfl
@[simp] theorem State.returns_hostUsesBus (s : State) (r : Result) : (s.returns r).hostUsesBus = s.hostUsesBus := rfl

@[simp] theorem State.own_life (s : State) (r : Resources) : (s.own r).life = Life.attached := rfl
@[simp] theorem State.own_res (s : State) (r : Resources) : (s.own r).res = some r := rfl
@[simp] theorem State.own_pins (s : State) (r : Resources) : (s.own r).pins = ⟨.unknown, .unknown, .unknown⟩ := rfl
@[simp] theorem State.own_busy (s : State) (r : Resources) : (s.own r).busy = s.busy := rfl
@[simp] theorem State.own_trace (s : State) (r : Resources) : (s.own r).trace = s.trace := rfl
@[simp] theorem State.own_ghost (s : State) (r : Resources) : (s.own r).ghost = s.ghost := rfl
@[simp] theorem State.own_cfg (s : State) (r : Resources) : (s.own r).cfg = s.cfg := rfl
@[simp] theorem State.own_chain (s : State) (r : Resources) : (s.own r).chain = s.chain := rfl
@[simp] theorem State.own_results (s : State) (r : Resources) : (s.own r).results = s.results := rfl
@[simp] theorem State.own_env (s : State) (r : Resources) : (s.own r).env = s.env := rfl
@[simp] theorem State.own_hostUsesBus (s : State) (r : Resources) : (s.own r).hostUsesBus = s.hostUsesBus := rfl

@[simp] theorem State.disown_life (s : State) : (s.disown).life = Life.detached := rfl
@[simp] theorem State.disown_res (s : State) : (s.disown).res = none := rfl
@[simp] theorem State.disown_pins (s : State) : (s.disown).pins = s.pins := rfl
@[simp] theorem State.disown_busy (s : State) : (s.disown).busy = s.busy := rfl
@[simp] theorem State.disown_trace (s : State) : (s.disown).trace = s.trace := rfl
@[simp] theorem State.disown_ghost (s : State) : (s.disown).ghost = if s.hostUsesBus then Ghost.forget .unknown else s.ghost := rfl
@[simp] theorem State.disown_cfg (s : State) : (s.disown).cfg = s.cfg := rfl
@[simp] theorem State.disown_chain (s : State) : (s.disown).chain = s.chain := rfl
@[simp] theorem State.disown_results (s : State) : (s.disown).results = s.results := rfl
@[simp] theorem State.disown_env (s : State) : (s.disown).env = s.env := rfl
@[simp] theorem State.disown_hostUsesBus (s : State) : (s.disown).hostUsesBus = s.hostUsesBus := rfl

@[simp] theorem State.popRequest_life (s : State) : (s.popRequest).life = s.life := rfl
@[simp] theorem State.popRequest_res (s : State) : (s.popRequest).res = s.res := rfl
@[simp] theorem State.popRequest_pins (s : State) : (s.popRequest).pins = s.pins := rfl
@[simp] theorem State.popRequest_busy (s : State) : (s.popRequest).busy = s.busy := rfl
@[simp] theorem State.popRequest_trace (s : State) : (s.popRequest).trace = s.trace := rfl
@[simp] theorem State.popRequest_ghost (s : State) : (s.popRequest).ghost = s.ghost := rfl
@[simp] theorem State.popRequest_cfg (s : State) : (s.popRequest).cfg = s.cfg := rfl
@[simp] theorem State.popRequest_chain (s : State) : (s.popRequest).chain = s.chain.tail := rfl
@[simp] theorem State.popRequest_results (s : State) : (s.popRequest).results = s.results := rfl
@[simp] theorem State.popRequest_env (s : State) : (s.popRequest).env = s.env := rfl
@[simp] theorem State.popRequest_hostUsesBus (s : State) : (s.popRequest).hostUsesBus = s.hostUsesBus := rfl

@[simp] theorem Pins.set_dc_dc (ps : Pins) (v : Known Level) : (ps.set .dc v).dc = v := rfl
@[simp] theorem Pins.set_dc_rst (ps : Pins) (v : Known Level) : (ps.set .dc v).rst = ps.rst := rfl
@[simp] theorem Pins.set_dc_cs (ps : Pins) (v : Known Level) : (ps.set .dc v).cs = ps.cs := rfl
@[simp] theorem Pins.set_rst_dc (ps : Pins) (v : Known Level) : (ps.set .rst v).dc = ps.dc := rfl
@[simp] theorem Pins.set_rst_rst (ps : Pins) (v : Known Level) : (ps.set .rst v).rst = v := rfl
@[simp] theorem Pins.set_rst_cs (ps : Pins) (v : Known Level) : (ps.set .rst v).cs = ps.cs := rfl
@[simp] theorem Pins.set_cs_dc (ps : Pins) (v : Known Level) : (ps.set .cs v).dc = ps.dc := rfl
@[simp] theorem Pins.set_cs_rst (ps : Pins) (v : Known Level) : (ps.set .cs v).rst = ps.rst := rfl
@[simp] theorem Pins.set_cs_cs (ps : Pins) (v : Known Level) : (ps.set .cs v).cs = v := rfl
@[simp] theorem Pins.get_set_self (ps : Pins) (p : Pin) (v : Known Level) : (ps.set p v).get p = v := by cases p <;> rfl
theorem Pins.get_set_of_ne (ps : Pins) {p q : Pin} (v : Known Level) (h : q ≠ p) : (ps.set p v).get q = ps.get q := by
  cases p <;> cases q <;> first | rfl | exact absurd rfl h

@[simp] theorem State.setPin_hasCs (s : State) (p : Pin) (v : Known Level) : (s.setPin p v).hasCs = s.hasCs := rfl
@[simp] theorem State.log_hasCs (s : State) (e : Event) : (s.log e).hasCs = s.hasCs := rfl
@[simp] theorem State.onGhost_hasCs (s : State) (f : Ghost → Ghost) : (s.onGhost f).hasCs = s.hasCs := rfl
@[simp] theorem State.answered_hasCs (s : State) : (s.answered).hasCs = s.hasCs := rfl
@[simp] theorem State.accept_hasCs (s : State) : (s.accept).hasCs = s.hasCs := rfl
@[simp] theorem State.setPin_answer (s : State) (p : Pin) (v : Known Level) : (s.setPin p v).answer = s.answer := rfl
@[simp] theorem State.log_answer (s : State) (e : Event) : (s.log e).answer = s.answer := rfl
@[simp] theorem State.onGhost_answer (s : State) (f : Ghost → Ghost) : (s.onGhost f).answer = s.answer := rfl
@[simp] theorem State.accept_answer (s : State) : (s.accept).answer = s.answer := rfl

end Sys2Proof.Machine
end

