-- ==== Sys2Proof/Laws/Runs.lean ====
section
/-! SUPPORT. What the capability primitives and the run combinators can do, each said once. -/

namespace Sys2Proof.Machine

@[simp] theorem Run.done_andThen (s : State) (f : State → Run) : (Run.done s).andThen f = f s := rfl
@[simp] theorem Run.stopped_andThen (w : Stop) (s : State) (f : State → Run) :
    (Run.stopped w s).andThen f = .stopped w s := rfl
@[simp] theorem Run.done_onStop (s : State) (f : Ghost → Ghost) : (Run.done s).onStop f = .done s := rfl
@[simp] theorem Run.stopped_onStop (w : Stop) (s : State) (f : Ghost → Ghost) :
    (Run.stopped w s).onStop f = .stopped w (s.onGhost f) := rfl
@[simp] theorem Run.done_addressingLost (s a : State) : (Run.done s).addressingLost a = .done s := rfl

theorem Run.andThen_assoc (r : Run) (f g : State → Run) :
    (r.andThen f).andThen g = r.andThen fun s => (f s).andThen g := by
  cases r <;> rfl

theorem pinSet_of_ok {p : Pin} {l : Level} {s : State} (h : s.answer = .ok) :
    pinSet p l s = .done ((s.answered.log (.pin p l .ok)).setPin p (.known l)) := by
  simp [pinSet, h]

theorem pinSet_of_fail {p : Pin} {l : Level} {s : State} {e : ErrorValue} (h : s.answer = .fail e) :
    pinSet p l s = .stopped (.err (.pinError e)) ((s.answered.log (.pin p l (.fail e))).setPin p .unknown) := by
  simp [pinSet, h, raise]

theorem pinSet_of_never {p : Pin} {l : Level} {s : State} (h : s.answer = .never) :
    pinSet p l s = .stopped .hang (s.answered.setPin p .unknown) := by
  simp [pinSet, h]

theorem busWrite_of_ok {bs : List Byte} {s : State} (h : s.answer = .ok) :
    busWrite bs s = .done (s.answered.log (.bus bs .ok)) := by
  simp [busWrite, h]

theorem busWrite_of_fail {bs : List Byte} {s : State} {e : ErrorValue} (h : s.answer = .fail e) :
    busWrite bs s = .stopped (.err (.busError e)) (s.answered.log (.bus bs (.fail e))) := by
  simp [busWrite, h, raise]

theorem busWrite_of_never {bs : List Byte} {s : State} (h : s.answer = .never) :
    busWrite bs s = .stopped .hang s.answered := by
  simp [busWrite, h]

/-- Everything a pin call can do (R9, R218). -/
theorem pinSet_cases (p : Pin) (l : Level) (s : State) :
    (s.answer = .ok ∧ pinSet p l s = .done ((s.answered.log (.pin p l .ok)).setPin p (.known l))) ∨
    (∃ e, s.answer = .fail e ∧
      pinSet p l s = .stopped (.err (.pinError e)) ((s.answered.log (.pin p l (.fail e))).setPin p .unknown)) ∨
    (s.answer = .never ∧ pinSet p l s = .stopped .hang (s.answered.setPin p .unknown)) := by
  cases h : s.answer with
  | ok => exact .inl ⟨rfl, pinSet_of_ok h⟩
  | fail e => exact .inr (.inl ⟨e, rfl, pinSet_of_fail h⟩)
  | never => exact .inr (.inr ⟨rfl, pinSet_of_never h⟩)

/-- Everything a bus call can do (R10, R218). -/
theorem busWrite_cases (bs : List Byte) (s : State) :
    (s.answer = .ok ∧ busWrite bs s = .done (s.answered.log (.bus bs .ok))) ∨
    (∃ e, s.answer = .fail e ∧
      busWrite bs s = .stopped (.err (.busError e)) (s.answered.log (.bus bs (.fail e)))) ∨
    (s.answer = .never ∧ busWrite bs s = .stopped .hang s.answered) := by
  cases h : s.answer with
  | ok => exact .inl ⟨rfl, busWrite_of_ok h⟩
  | fail e => exact .inr (.inl ⟨e, rfl, busWrite_of_fail h⟩)
  | never => exact .inr (.inr ⟨rfl, busWrite_of_never h⟩)

/-! ## Relations kept by every part of an operation -/

/-- Whatever way a run ends, its state is related to `s`. -/
def Run.Within (R : State → State → Prop) (s : State) : Run → Prop
  | .done t => R s t
  | .stopped _ t => R s t

theorem Run.Within.andThen {R : State → State → Prop} (trans : ∀ {a b c}, R a b → R b c → R a c)
    {s : State} {r : Run} {f : State → Run} (hr : r.Within R s) (hf : ∀ t, (f t).Within R t) :
    (r.andThen f).Within R s := by
  cases r with
  | done t =>
    have := hf t
    simp only [Run.done_andThen]
    cases h : f t <;> rw [h] at this <;> exact trans hr this
  | stopped w t => exact hr

theorem Run.Within.onStop {R : State → State → Prop} (trans : ∀ {a b c}, R a b → R b c → R a c)
    {s : State} {r : Run} {f : Ghost → Ghost} (hr : r.Within R s) (hg : ∀ t : State, R t (t.onGhost f)) :
    (r.onStop f).Within R s := by
  cases r with
  | done t => exact hr
  | stopped w t => exact trans hr (hg t)

/-- Everything accepting and returning can do (R36, R186, R194, R218): if an operation answers a next state, it
was accepted and the next state is its run's, with the result returned unless the run hangs. -/
theorem operation_next {need : Life} {back backOnErr : Option Resources} {body : State → Run} {s t : State}
    (h : operation need back backOnErr body s = .next t) :
    s.busy = false ∧ s.life = need ∧
      ((∃ u, body s.accept = .done u ∧ t = u.returns ⟨none, back⟩) ∨
       (∃ e u, body s.accept = .stopped (.err e) u ∧ t = u.returns ⟨some e, backOnErr⟩) ∨
       (body s.accept = .stopped .hang t)) := by
  unfold operation at h
  cases hb : s.busy with
  | true => simp [hb] at h
  | false =>
    by_cases hl : s.life = need
    · refine ⟨rfl, hl, ?_⟩
      simp only [hb, hl, Bool.false_eq_true, if_false, if_true] at h
      cases hr : body s.accept with
      | done u => rw [hr] at h; simp only [finish, Host.Outcome.next.injEq] at h; exact .inl ⟨u, rfl, h.symm⟩
      | stopped w u =>
        cases w with
        | err e =>
          rw [hr] at h; simp only [finish, Host.Outcome.next.injEq] at h; exact .inr (.inl ⟨e, u, rfl, h.symm⟩)
        | hang =>
          rw [hr] at h; simp only [finish, Host.Outcome.next.injEq] at h; exact .inr (.inr (by rw [h]))
    · cases need <;> simp [hb, hl] at h

/-- An accepted operation runs its body and returns (R194). -/
theorem operation_accepted {need : Life} {back backOnErr : Option Resources} {body : State → Run} {s : State}
    (hb : s.busy = false) (hl : s.life = need) :
    operation need back backOnErr body s = finish back backOnErr (body s.accept) := by
  simp [operation, hb, hl]

theorem handleOp_ready {body : State → Run} {s : State} (hb : s.busy = false) (hl : s.life = .attached) :
    handleOp body s = finish none none (body s.accept) := operation_accepted hb hl

end Sys2Proof.Machine
end

