-- ==== Sys2Proof/Laws/Framer.lean ====
section
/-! SUPPORT. What the framer does when every call succeeds, said once, and the bookkeeping of the collaborators' answers. -/

namespace Sys2Proof.Machine

theorem answersOk_answer {s : State} {n : Nat} (h : s.AnswersOk (n + 1)) : s.answer = .ok := by
  unfold State.answer
  cases he : s.env with
  | nil => rfl
  | cons a as => exact h a (by simp [he])

theorem answersOk_answered {s : State} {n : Nat} (h : s.AnswersOk (n + 1)) : s.answered.AnswersOk n := by
  intro a ha
  cases he : s.env with
  | nil => simp [he] at ha
  | cons b as => exact h a (by simp only [State.answered_env, he, List.tail_cons] at ha; simp [he, ha])

/-- The answers left after `k` calls. -/
theorem answersOk_drop {s t : State} {n : Nat} (k : Nat) (h : s.AnswersOk (k + n)) (ht : t.env = s.env.drop k) :
    t.AnswersOk n := by
  intro a ha
  rw [ht] at ha
  refine h a ?_
  rw [List.take_add]
  exact List.mem_append_right _ ha

theorem answersOk_mono {s : State} {n m : Nat} (h : s.AnswersOk n) (hm : m ≤ n) : s.AnswersOk m :=
  fun a ha => h a ((List.take_subset_take_left _ hm) ha)

/-- A pin call that succeeds (R9). -/
theorem pinSet_ok {p : Pin} {l : Level} {s : State} {n : Nat} (h : s.AnswersOk (n + 1)) :
    pinSet p l s = .done { s with env := s.env.drop 1, trace := s.trace ++ [.pin p l .ok], pins := s.pins.set p (.known l) } := by
  rw [pinSet_of_ok (answersOk_answer h)]; simp [State.setPin, State.log, State.answered]

/-- A bus call that succeeds (R10). -/
theorem busWrite_ok {bs : List Byte} {s : State} {n : Nat} (h : s.AnswersOk (n + 1)) :
    busWrite bs s = .done { s with env := s.env.drop 1, trace := s.trace ++ [.bus bs .ok] } := by
  rw [busWrite_of_ok (answersOk_answer h)]; simp [State.log, State.answered]

/-- A command phase that succeeds (R100). -/
theorem commandPhase_ok {cmd : Cmd} {s : State} (h : s.AnswersOk 2) :
    commandPhase cmd s = .done { s with
      env := s.env.drop 2, trace := s.trace ++ commandEvents s.cfg cmd,
      pins := { s.pins with dc := .known s.cfg.dcCmdLevel }, ghost := s.ghost.opcodeReceived cmd } := by
  unfold commandPhase
  rw [pinSet_ok h]
  simp only [Run.done_andThen]
  rw [busWrite_ok (n := 0) (answersOk_drop 1 h rfl)]
  simp [State.onGhost, commandEvents, Pins.set]

/-- A data phase that succeeds (R100, R101). -/
theorem dataPhase_ok {bytes : List Byte} {s : State} (h : s.AnswersOk 2) :
    dataPhase bytes s = .done { s with
      env := s.env.drop 2, trace := s.trace ++ dataEvents s.cfg bytes,
      pins := { s.pins with dc := .known (dcDataLevel s.cfg) } } := by
  unfold dataPhase
  rw [pinSet_ok h]
  simp only [Run.done_andThen]
  rw [busWrite_ok (n := 0) (answersOk_drop 1 h rfl)]
  simp [dataEvents, Pins.set]

/-- A frame without parameters that succeeds (R100). -/
theorem sendCommand_none_ok {cmd : Cmd} {s : State} (h : s.AnswersOk 2) :
    sendCommand cmd none s = .done { s with
      env := s.env.drop 2, trace := s.trace ++ commandEvents s.cfg cmd,
      pins := { s.pins with dc := .known s.cfg.dcCmdLevel },
      ghost := (s.ghost.opcodeReceived cmd).frameReceived cmd [] } := by
  unfold sendCommand
  rw [commandPhase_ok h]
  simp [hasDataPhase, State.onGhost]

/-- A frame with parameters that succeeds (R100). -/
theorem sendCommand_some_ok {cmd : Cmd} {bytes : List Byte} {s : State} (hb : hasDataPhase s.cfg (some bytes) = true)
    (h : s.AnswersOk 4) :
    sendCommand cmd (some bytes) s = .done { s with
      env := s.env.drop 4, trace := s.trace ++ frameEvents s.cfg cmd bytes,
      pins := { s.pins with dc := .known (dcDataLevel s.cfg) },
      ghost := (s.ghost.opcodeReceived cmd).frameReceived cmd bytes } := by
  unfold sendCommand
  rw [commandPhase_ok (answersOk_mono h (by omega))]
  simp only [Run.done_andThen, hb, if_true, Option.getD_some]
  rw [dataPhase_ok (answersOk_drop 2 h rfl)]
  simp [frameEvents, State.onGhost]

/-- An empty parameter list is no data phase unless the parameter says so (R100 corner case 2). -/
theorem sendCommand_empty {cmd : Cmd} {s : State} (hc : s.cfg.emptyParamsDataPhase = false)  :
    sendCommand cmd (some []) s = sendCommand cmd none s := by
  have hcfg : ∀ t, commandPhase cmd s = .done t → t.cfg = s.cfg := by
    intro t ht
    unfold commandPhase at ht
    rcases pinSet_cases .dc s.cfg.dcCmdLevel s with ⟨-, hp⟩ | ⟨e, -, hp⟩ | ⟨-, hp⟩ <;> rw [hp] at ht
    · simp only [Run.done_andThen] at ht
      generalize hu : ((s.answered.log (Event.pin .dc s.cfg.dcCmdLevel .ok)).setPin .dc (.known s.cfg.dcCmdLevel)) = u at ht
      have hucfg : u.cfg = s.cfg := by rw [← hu]; rfl
      rcases busWrite_cases [opcode u.cfg cmd] u with ⟨-, hb⟩ | ⟨e, -, hb⟩ | ⟨-, hb⟩ <;> rw [hb] at ht <;> simp at ht
      rw [← ht]; simpa using hucfg
    · simp at ht
    · simp at ht
  unfold sendCommand
  cases h : commandPhase cmd s with
  | stopped w t => rfl
  | done t =>
    have := hcfg t h
    simp [hasDataPhase, this, hc]

/-- A pixel's data phase that succeeds (R101). -/
theorem sendData_ok {bytes : List Byte} {s : State} (h : s.AnswersOk 2) :
    sendData bytes s = .done { s with
      env := s.env.drop 2, trace := s.trace ++ dataEvents s.cfg bytes,
      pins := { s.pins with dc := .known (dcDataLevel s.cfg) }, ghost := s.ghost.pixelReceived bytes } := by
  unfold sendData
  rw [pinSet_ok h]
  simp only [Run.done_andThen]
  rw [busWrite_ok (n := 0) (answersOk_drop 1 h rfl)]
  simp [dataEvents, Pins.set, State.onGhost]

/-- A run of pixels that succeeds (R121). -/
theorem sendPixels_ok {colors : List Word} {s : State} (h : s.AnswersOk (2 * colors.length)) :
    sendPixels colors s = .done { s with
      env := s.env.drop (2 * colors.length), trace := s.trace ++ pixelEvents s.cfg colors,
      pins := { s.pins with dc := if colors.isEmpty then s.pins.dc else .known (dcDataLevel s.cfg) },
      ghost := colors.foldl (fun g c => g.pixelReceived (be16 c)) s.ghost } := by
  induction colors generalizing s with
  | nil => simp [sendPixels, pixelEvents]
  | cons c cs ih =>
    rw [List.length_cons, Nat.mul_add, Nat.add_comm] at h
    rw [sendPixels, sendData_ok (answersOk_mono h (by omega))]
    simp only [Run.done_andThen]
    rw [ih (answersOk_drop 2 h rfl)]
    have hd : 2 * (cs.length + 1) = 2 + 2 * cs.length := by omega
    cases cs <;> simp [pixelEvents, be16, List.drop_drop, Nat.mul_add, Nat.add_comm]

end Sys2Proof.Machine
end

