-- ==== Sys2Proof/Laws/Memory.lean ====
section
/-! SUPPORT. The frame memory: reading after writing, and that every operation keeps the canonical form. -/

namespace Sys2Proof.Machine

theorem Memory.mem_writeByte {m : Memory} {a : Nat} {b : Byte} {c : Host.Cell} (h : c ∈ m.writeByte a b) :
    c = (a, b) ∨ c ∈ m := by
  induction m with
  | nil => simp only [Memory.writeByte, List.mem_singleton] at h; exact .inl h
  | cons x m ih =>
    obtain ⟨k, v⟩ := x
    simp only [Memory.writeByte] at h
    split at h
    · simpa using h
    · split at h
      · simp only [List.mem_cons] at h ⊢
        rcases h with h | h
        · exact .inl h
        · exact .inr (.inr h)
      · simp only [List.mem_cons] at h ⊢
        rcases h with h | h
        · exact .inr (.inl h)
        · rcases ih h with h | h
          · exact .inl h
          · exact .inr (.inr h)

/-- A write keeps the canonical form. -/
theorem Memory.wf_writeByte {m : Memory} (h : m.wf) {a : Nat} {b : Byte} (ha : a < Memory.size) :
    (m.writeByte a b).wf := by
  refine ⟨?_, ?_⟩
  · obtain ⟨hp, -⟩ := h
    induction m with
    | nil => simp [Memory.writeByte]
    | cons x m ih =>
      obtain ⟨k, v⟩ := x
      simp only [List.map_cons, List.pairwise_cons] at hp
      simp only [Memory.writeByte]
      split
      · rename_i hak
        simp only [List.map_cons, List.pairwise_cons, List.mem_cons, forall_eq_or_imp]
        exact ⟨⟨hak, fun k' hk' => lt_trans hak (hp.1 k' hk')⟩, hp⟩
      · split
        · rename_i hak
          subst hak
          simpa using hp
        · rename_i h1 h2
          simp only [List.map_cons, List.pairwise_cons]
          refine ⟨?_, ih hp.2⟩
          intro k' hk'
          simp only [List.mem_map] at hk'
          obtain ⟨c, hc, rfl⟩ := hk'
          rcases Memory.mem_writeByte hc with rfl | hc
          · show k < a
            omega
          · exact hp.1 _ (List.mem_map_of_mem hc)
  · intro c hc
    rcases Memory.mem_writeByte hc with rfl | hc
    · exact ha
    · exact h.2 c hc

/-- Forgetting a byte keeps the canonical form. -/
theorem Memory.wf_forgetByte {m : Memory} (h : m.wf) (a : Nat) : (m.forgetByte a).wf := by
  refine ⟨?_, fun c hc => h.2 c (List.mem_of_mem_filter hc)⟩
  exact h.1.sublist (List.Sublist.map _ List.filter_sublist)

theorem pixelAddr_lt (col row : Word) : pixelAddr col row + 1 < Memory.size := by
  have h1 := col.isLt
  have h2 := row.isLt
  unfold pixelAddr Memory.size
  omega

/-- A pixel write keeps the canonical form. -/
theorem Memory.wf_writePixel {m : Memory} (h : m.wf) (col row v : Word) : (m.writePixel col row v).wf :=
  Memory.wf_writeByte (Memory.wf_writeByte h (by have := pixelAddr_lt col row; omega)) (pixelAddr_lt col row)

/-- Forgetting a pixel keeps the canonical form. -/
theorem Memory.wf_forgetPixel {m : Memory} (h : m.wf) (col row : Word) : (m.forgetPixel col row).wf :=
  Memory.wf_forgetByte (Memory.wf_forgetByte h _) _

theorem Memory.wf_nil : Memory.wf [] := by simp [Memory.wf]

theorem Memory.readByte_writeByte_same (m : Memory) (a : Nat) (b : Byte) :
    (m.writeByte a b).readByte a = .known b := by
  induction m with
  | nil => simp [Memory.writeByte, Memory.readByte]
  | cons x m ih =>
    obtain ⟨k, v⟩ := x
    simp only [Memory.writeByte]
    split
    · simp [Memory.readByte]
    · split
      · simp [Memory.readByte]
      · rename_i h1 h2
        simp [Memory.readByte, Ne.symm h2, ih]

theorem Memory.readByte_writeByte_other (m : Memory) {a a' : Nat} (b : Byte) (h : a' ≠ a) :
    (m.writeByte a b).readByte a' = m.readByte a' := by
  induction m with
  | nil => simp [Memory.writeByte, Memory.readByte, Ne.symm h]
  | cons x m ih =>
    obtain ⟨k, v⟩ := x
    simp only [Memory.writeByte]
    split
    · simp [Memory.readByte, Ne.symm h]
    · split
      · rename_i h1 h2
        subst h2
        simp [Memory.readByte, Ne.symm h]
      · simp only [Memory.readByte, ih]

theorem Memory.readByte_forgetByte_other (m : Memory) {a a' : Nat} (h : a' ≠ a) :
    (m.forgetByte a).readByte a' = m.readByte a' := by
  induction m with
  | nil => rfl
  | cons x m ih =>
    obtain ⟨k, v⟩ := x
    by_cases hk : k = a
    · subst hk
      simpa [Memory.forgetByte, Memory.readByte, Ne.symm h] using ih
    · have e : Memory.forgetByte ((k, v) :: m) a = (k, v) :: Memory.forgetByte m a := by
        simp [Memory.forgetByte, hk]
      rw [e]
      simp only [Memory.readByte, ih]

theorem Memory.readByte_forgetByte_same (m : Memory) (a : Nat) : (m.forgetByte a).readByte a = .unknown := by
  induction m with
  | nil => rfl
  | cons x m ih =>
    obtain ⟨k, v⟩ := x
    by_cases hk : k = a
    · subst hk
      simpa [Memory.forgetByte] using ih
    · have e : Memory.forgetByte ((k, v) :: m) a = (k, v) :: Memory.forgetByte m a := by
        simp [Memory.forgetByte, hk]
      rw [e]
      simp [Memory.readByte, hk, ih]

/-- Two pixels share a byte address only if they are the same pixel. -/
theorem pixelAddr_inj {col row col' row' : Word} (h : pixelAddr col row = pixelAddr col' row') : col = col' ∧ row = row' := by
  have h1 := col.isLt
  have h2 := col'.isLt
  unfold pixelAddr at h
  exact ⟨BitVec.eq_of_toNat_eq (by omega), BitVec.eq_of_toNat_eq (by omega)⟩

/-- No byte of one pixel is the low byte of one and the high byte of another. -/
theorem pixelAddr_even (col row col' row' : Word) : pixelAddr col row ≠ pixelAddr col' row' + 1 := by
  unfold pixelAddr
  omega

/-- A byte that is neither of a pixel's two reads the same after a write of that pixel. -/
theorem Memory.readByte_writePixel_other (m : Memory) {col row v : Word} {a : Nat}
    (h : a ≠ pixelAddr col row) (h' : a ≠ pixelAddr col row + 1) :
    (m.writePixel col row v).readByte a = m.readByte a := by
  rw [Memory.writePixel, Memory.readByte_writeByte_other _ _ h', Memory.readByte_writeByte_other _ _ h]

/-- A byte that is neither of a pixel's two reads the same after that pixel is forgotten. -/
theorem Memory.readByte_forgetPixel_other (m : Memory) {col row : Word} {a : Nat}
    (h : a ≠ pixelAddr col row) (h' : a ≠ pixelAddr col row + 1) :
    (m.forgetPixel col row).readByte a = m.readByte a := by
  rw [Memory.forgetPixel, Memory.readByte_forgetByte_other _ h', Memory.readByte_forgetByte_other _ h]

/-! ## The controller keeps its frame memory in the canonical form -/

theorem wf_forget (p : Power) : (Ghost.forget p).ram.wf := Memory.wf_nil

theorem wf_opcodeReceived {g : Ghost} (h : g.ram.wf) (cmd : Cmd) : (g.opcodeReceived cmd).ram.wf := by
  cases cmd <;> exact h

theorem wf_frameReceived {g : Ghost} (h : g.ram.wf) (cmd : Cmd) (params : List Byte) : (g.frameReceived cmd params).ram.wf := by
  cases cmd <;> simp only [Ghost.frameReceived] <;> first | exact h | exact wf_forget _ | (split <;> exact h)

theorem wf_frameCut {g : Ghost} (h : g.ram.wf) (cmd : Cmd) : (g.frameCut cmd).ram.wf := by
  cases cmd <;> first | exact h | exact wf_forget _

theorem wf_opcodeInDoubt {g : Ghost} (h : g.ram.wf) (cmd : Cmd) : (g.opcodeInDoubt cmd).ram.wf := by
  unfold Ghost.opcodeInDoubt; split <;> exact wf_frameCut h cmd

theorem wf_pixelReceived {g : Ghost} (h : g.ram.wf) (bytes : List Byte) : (g.pixelReceived bytes).ram.wf := by
  unfold Ghost.pixelReceived
  split
  · exact h
  · split
    · exact Memory.wf_writePixel h _ _ _
    · exact Memory.wf_nil
  · exact Memory.wf_nil

theorem wf_pixelInDoubt {g : Ghost} (h : g.ram.wf) : g.pixelInDoubt.ram.wf := by
  unfold Ghost.pixelInDoubt
  split
  · exact h
  · split
    · exact Memory.wf_forgetPixel h _ _
    · exact Memory.wf_nil
  · exact Memory.wf_nil

theorem wf_addressingInDoubt {g : Ghost} (h : g.ram.wf) : g.addressingInDoubt.ram.wf := h

theorem wf_reset : State.reset.ghost.ram.wf := Memory.wf_nil

end Sys2Proof.Machine
end

