-- ==== Sys2Proof/Laws/Operands.lean ====
section
/-! SUPPORT. Halves and whole of a 16-bit operand, the pixel bytes of a run of colours, the opcode table, the orientation byte. -/

namespace Sys2Proof.Machine

@[simp] theorem word16_hi8_lo8 (v : Word) : word16 (hi8 v) (lo8 v) = v := by
  apply BitVec.eq_of_toNat_eq
  simp only [word16, hi8, lo8, BitVec.toNat_append, BitVec.extractLsb'_toNat]
  rw [Nat.shiftLeft_add_eq_or_of_lt (Nat.mod_lt _ (by decide)) _ |>.symm]
  simp only [Nat.shiftLeft_eq, Nat.shiftRight_eq_div_pow]
  have := v.isLt
  omega

@[simp] theorem hi8_word16 (h l : Byte) : hi8 (word16 h l) = h := by
  apply BitVec.eq_of_getLsbD_eq
  intro i hi
  simp only [word16, hi8, BitVec.getLsbD_extractLsb', hi, decide_true, Bool.true_and, BitVec.getLsbD_append,
    show ¬ 8 + i < 8 by omega, if_false, show 8 + i - 8 = i by omega]

@[simp] theorem lo8_word16 (h l : Byte) : lo8 (word16 h l) = l := by
  apply BitVec.eq_of_getLsbD_eq
  intro i hi
  simp only [word16, lo8, BitVec.getLsbD_extractLsb', hi, decide_true, Bool.true_and, BitVec.getLsbD_append,
    if_true, Nat.zero_add]

theorem word16_inj {h l h' l' : Byte} (e : word16 h l = word16 h' l') : h = h' ∧ l = l' :=
  ⟨by simpa using congrArg hi8 e, by simpa using congrArg lo8 e⟩

/-- The pixels of a stream are read back from its bytes (R53, R74). -/
@[simp] theorem pixelWords_pixelBytes (colors : List Word) : pixelWords (pixelBytes colors) = some colors := by
  induction colors with
  | nil => rfl
  | cons c cs ih =>
    have e : pixelBytes (c :: cs) = hi8 c :: lo8 c :: pixelBytes cs := rfl
    simp [e, pixelWords, ih]

/-- One field's bit of the orientation byte (R76). -/
theorem getLsbD_orientationBit (choice : Bool) (bit : Fin 8) (k : Nat) :
    (orientationBit choice bit).getLsbD k = (choice && decide (k = bit.val)) := by
  unfold orientationBit
  cases choice <;> simp [BitVec.getLsbD_twoPow]
  omega

/-- Every bit of the orientation byte (R76). -/
theorem getLsbD_encodeMadctl (bits : MadctlBits) (o : Orientation) (k : Nat) :
    (encodeMadctl bits o).getLsbD k =
      ((o.pageOrder && decide (k = bits.page.val)) || (o.columnOrder && decide (k = bits.column.val)) ||
       (o.pageColumnSwap && decide (k = bits.swap.val)) || (o.lineOrder && decide (k = bits.line.val)) ||
       (o.colorOrder && decide (k = bits.color.val)) || (o.latchOrder && decide (k = bits.latch.val))) := by
  simp only [encodeMadctl, BitVec.getLsbD_or, getLsbD_orientationBit]

/-- A key that occurs once in a list finds the entry it belongs to. -/
theorem find?_key {α β : Type} [DecidableEq β] (f : α → β) {l : List α} {a : α} (h : (l.map f).Nodup) (ha : a ∈ l) :
    l.find? (fun x => f x == f a) = some a := by
  induction l with
  | nil => simp at ha
  | cons x xs ih =>
    rw [List.map_cons, List.nodup_cons] at h
    rcases List.mem_cons.1 ha with rfl | ha
    · simp
    · have : f x ≠ f a := fun e => h.1 (e ▸ List.mem_map_of_mem ha)
      rw [List.find?_cons_of_neg (by simpa using this)]
      exact ih h.2 ha

theorem mem_allOps (op : Op) : op ∈ allOps := by cases op <;> decide

theorem mem_allCmds (cmd : Cmd) : cmd ∈ allCmds := by cases cmd <;> decide

/-- With distinct selectors, an operation's selector names it (R82). -/
theorem opOfSelector_selector {cfg : Config} (h : cfg.opsel.toList.Nodup) (op : Op) :
    opOfSelector cfg (selector cfg op) = some op := find?_key (selector cfg) h (mem_allOps op)

/-- With distinct opcodes, a command's opcode byte names it (R78). -/
theorem cmdOfOpcode_opcode {cfg : Config} (h : cfg.opc.toList.Nodup) (cmd : Cmd) :
    cmdOfOpcode cfg (opcode cfg cmd) = some cmd := find?_key (opcode cfg) h (mem_allCmds cmd)

/-- A byte is an orientation byte exactly when every bit set is one a field owns (R76, R195). -/
theorem decodeMadctl_isSome_iff (bits : MadctlBits) (b : Byte) :
    (decodeMadctl bits b).isSome = true ↔ ∀ k : Fin 8, b.getLsbD k = true → k ∈ bits.toList := by
  have key : encodeMadctl bits (orientationFields bits b) = b ↔ ∀ k : Fin 8, b.getLsbD k = true → k ∈ bits.toList := by
    constructor
    · intro e k hk
      rw [← e, getLsbD_encodeMadctl] at hk
      simp only [Bool.or_eq_true, Bool.and_eq_true, decide_eq_true_eq, ← Fin.ext_iff] at hk
      simp only [MadctlBits.toList, List.mem_cons, List.not_mem_nil, or_false]
      tauto
    · intro h
      refine BitVec.eq_of_getLsbD_eq fun i hi => ?_
      rw [getLsbD_encodeMadctl]
      have hk := h ⟨i, hi⟩
      simp only [MadctlBits.toList, List.mem_cons, List.not_mem_nil, or_false, Fin.ext_iff] at hk
      rw [Bool.eq_iff_iff]
      simp only [orientationFields, Bool.or_eq_true, Bool.and_eq_true, decide_eq_true_eq]
      constructor
      · rintro (((((h | h) | h) | h) | h) | h) <;> rw [h.2] <;> exact h.1
      · intro hb
        rcases hk hb with e | e | e | e | e | e <;> rw [← e] <;> simp [hb]
  unfold decodeMadctl
  split
  · next e => simpa using key.1 e
  · next e => simpa using fun h => e (key.2 h)

end Sys2Proof.Machine
end

