-- ==== Sys2Proof/Laws/PerInstr.lean ====
section
/-! SUPPORT. Statements made per instruction: the first byte of an instruction's encoding is its row's in spec/opcode_table.json. -/

namespace Sys2Proof.Laws.TableByte

open Sys2Proof Sys2Proof.Machine

/-- The byte a request starts with: a selector (30_encoding R81, R82) or an opcode (R70, R78). -/
def firstByte : Request → Option Byte
  | .req r => some r.sel
  | .frame bytes => bytes.head?

/-- The byte of the instruction's row: the selector the given table has for its operation (R82), or the opcode for its command (R78). -/
def rowByte (cfg : Config) : Instr → Byte
  | .setColumnAddress .. => cfg.opsel.setColumnAddress
  | .setRowAddress .. => cfg.opsel.setRowAddress
  | .setAddressWindow .. => cfg.opsel.setAddressWindow
  | .writeSinglePixel .. => cfg.opsel.writeSinglePixel
  | .writePixelStream .. => cfg.opsel.writePixelStream
  | .hardReset => cfg.opsel.hardReset
  | .softReset => cfg.opsel.softReset
  | .sleepOut => cfg.opsel.sleepOut
  | .sleepIn => cfg.opsel.sleepIn
  | .colorMode .. => cfg.opsel.colorMode
  | .memoryAccessControl .. => cfg.opsel.memoryAccessControl
  | .displayOn => cfg.opsel.displayOn
  | .displayOff => cfg.opsel.displayOff
  | .inversionOn => cfg.opsel.inversionOn
  | .inversionOff => cfg.opsel.inversionOff
  | .partialDisplayMode => cfg.opsel.partialDisplayMode
  | .normalMode => cfg.opsel.normalMode
  | .idleOn => cfg.opsel.idleOn
  | .idleOff => cfg.opsel.idleOff
  | .initializePanel => cfg.opsel.initializePanel
  | .attach .. => cfg.opsel.attach
  | .attachConfig .. => cfg.opsel.attachConfig
  | .release => cfg.opsel.release
  | .swreset => cfg.opc.swreset
  | .slpin => cfg.opc.slpin
  | .slpout => cfg.opc.slpout
  | .ptlon => cfg.opc.ptlon
  | .noron => cfg.opc.noron
  | .invoff => cfg.opc.invoff
  | .invon => cfg.opc.invon
  | .dispoff => cfg.opc.dispoff
  | .dispon => cfg.opc.dispon
  | .caset .. => cfg.opc.caset
  | .raset .. => cfg.opc.raset
  | .ramwr .. => cfg.opc.ramwr
  | .madctl .. => cfg.opc.madctl
  | .idmoff => cfg.opc.idmoff
  | .idmon => cfg.opc.idmon
  | .colmod .. => cfg.opc.colmod

/-- The encoding of the instruction starts with its row's byte, whatever the operands and the parameters. -/
def Statement (i : Instr) : Prop := ∀ cfg : Config, firstByte (encode cfg i) = some (rowByte cfg i)

theorem setColumnAddress (a b : Word) : Statement (.setColumnAddress a b) := fun _ => rfl
theorem setRowAddress (a b : Word) : Statement (.setRowAddress a b) := fun _ => rfl
theorem setAddressWindow (a b c d : Word) : Statement (.setAddressWindow a b c d) := fun _ => rfl
theorem writeSinglePixel (a b c : Word) : Statement (.writeSinglePixel a b c) := fun _ => rfl
theorem writePixelStream (a b c d : Word) (e : List Word) : Statement (.writePixelStream a b c d e) := fun _ => rfl
theorem hardReset : Statement .hardReset := fun _ => rfl
theorem softReset : Statement .softReset := fun _ => rfl
theorem sleepOut : Statement .sleepOut := fun _ => rfl
theorem sleepIn : Statement .sleepIn := fun _ => rfl
theorem colorMode (a : Byte) : Statement (.colorMode a) := fun _ => rfl
theorem memoryAccessControl (a : Orientation) : Statement (.memoryAccessControl a) := fun _ => rfl
theorem displayOn : Statement .displayOn := fun _ => rfl
theorem displayOff : Statement .displayOff := fun _ => rfl
theorem inversionOn : Statement .inversionOn := fun _ => rfl
theorem inversionOff : Statement .inversionOff := fun _ => rfl
theorem partialDisplayMode : Statement .partialDisplayMode := fun _ => rfl
theorem normalMode : Statement .normalMode := fun _ => rfl
theorem idleOn : Statement .idleOn := fun _ => rfl
theorem idleOff : Statement .idleOff := fun _ => rfl
theorem initializePanel : Statement .initializePanel := fun _ => rfl
theorem attach (a : Handle) (b : PinBundle) : Statement (.attach a b) := fun _ => rfl
theorem attachConfig (a : Handle) (b : PinBundle) : Statement (.attachConfig a b) := fun _ => rfl
theorem release : Statement .release := fun _ => rfl
theorem swreset : Statement .swreset := fun _ => rfl
theorem slpin : Statement .slpin := fun _ => rfl
theorem slpout : Statement .slpout := fun _ => rfl
theorem ptlon : Statement .ptlon := fun _ => rfl
theorem noron : Statement .noron := fun _ => rfl
theorem invoff : Statement .invoff := fun _ => rfl
theorem invon : Statement .invon := fun _ => rfl
theorem dispoff : Statement .dispoff := fun _ => rfl
theorem dispon : Statement .dispon := fun _ => rfl
theorem caset (a b : Word) : Statement (.caset a b) := fun _ => rfl
theorem raset (a b : Word) : Statement (.raset a b) := fun _ => rfl
theorem ramwr (a : List Word) : Statement (.ramwr a) := fun _ => rfl
theorem madctl (a : Orientation) : Statement (.madctl a) := fun _ => rfl
theorem idmoff : Statement .idmoff := fun _ => rfl
theorem idmon : Statement .idmon := fun _ => rfl
theorem colmod (a : Byte) : Statement (.colmod a) := fun _ => rfl

end Sys2Proof.Laws.TableByte
end

