-- ==== Sys2Proof/Laws/Phases.lean ====
section
/-! SUPPORT. Everything the phases of the framer can do, each said once; and the address window and the opening of a
stream when every call succeeds. -/

namespace Sys2Proof.Machine

/-- Everything a command phase can do (R100, R104): both calls succeed, or it is cut short at the pin or at the bus. -/
theorem commandPhase_cases (cmd : Cmd) (s : State) :
    commandPhase cmd s = .done { s with
      env := s.env.tail.tail, trace := s.trace ++ commandEvents s.cfg cmd,
      pins := { s.pins with dc := .known s.cfg.dcCmdLevel }, ghost := s.ghost.opcodeReceived cmd } ∨
    (∃ e, commandPhase cmd s = .stopped (.err (.pinError e)) { s with
      env := s.env.tail, trace := s.trace ++ [.pin .dc s.cfg.dcCmdLevel (.fail e)],
      pins := { s.pins with dc := .unknown } }) ∨
    commandPhase cmd s = .stopped .hang { s with env := s.env.tail, pins := { s.pins with dc := .unknown } } ∨
    (∃ e, commandPhase cmd s = .stopped (.err (.busError e)) { s with
      env := s.env.tail.tail,
      trace := s.trace ++ [.pin .dc s.cfg.dcCmdLevel .ok, .bus [opcode s.cfg cmd] (.fail e)],
      pins := { s.pins with dc := .known s.cfg.dcCmdLevel }, ghost := s.ghost.opcodeInDoubt cmd }) ∨
    commandPhase cmd s = .stopped .hang { s with
      env := s.env.tail.tail, trace := s.trace ++ [.pin .dc s.cfg.dcCmdLevel .ok],
      pins := { s.pins with dc := .known s.cfg.dcCmdLevel }, ghost := s.ghost.opcodeInDoubt cmd } := by
  unfold commandPhase
  rcases pinSet_cases .dc s.cfg.dcCmdLevel s with ⟨-, hp⟩ | ⟨e, -, hp⟩ | ⟨-, hp⟩ <;> rw [hp]
  · simp only [Run.done_andThen]
    generalize hu : (s.answered.log (.pin .dc s.cfg.dcCmdLevel .ok)).setPin .dc (.known s.cfg.dcCmdLevel) = u
    rcases busWrite_cases [opcode u.cfg cmd] u with ⟨-, hb⟩ | ⟨e, -, hb⟩ | ⟨-, hb⟩ <;> rw [hb] <;> subst hu
    · exact .inl (by simp [State.onGhost, State.log, State.answered, State.setPin, commandEvents, Pins.set])
    · exact .inr (.inr (.inr (.inl ⟨e, by simp [State.onGhost, State.log, State.answered, State.setPin, Pins.set]⟩)))
    · exact .inr (.inr (.inr (.inr (by simp [State.onGhost, State.log, State.answered, State.setPin, Pins.set]))))
  · exact .inr (.inl ⟨e, by simp [State.log, State.answered, State.setPin, Pins.set]⟩)
  · exact .inr (.inr (.inl (by simp [State.answered, State.setPin, Pins.set])))

/-- Everything a data phase can do (R100, R101, R104). -/
theorem dataPhase_cases (bytes : List Byte) (s : State) :
    dataPhase bytes s = .done { s with
      env := s.env.tail.tail, trace := s.trace ++ dataEvents s.cfg bytes,
      pins := { s.pins with dc := .known (dcDataLevel s.cfg) } } ∨
    (∃ e, dataPhase bytes s = .stopped (.err (.pinError e)) { s with
      env := s.env.tail, trace := s.trace ++ [.pin .dc (dcDataLevel s.cfg) (.fail e)],
      pins := { s.pins with dc := .unknown } }) ∨
    dataPhase bytes s = .stopped .hang { s with env := s.env.tail, pins := { s.pins with dc := .unknown } } ∨
    (∃ e, dataPhase bytes s = .stopped (.err (.busError e)) { s with
      env := s.env.tail.tail,
      trace := s.trace ++ [.pin .dc (dcDataLevel s.cfg) .ok, .bus bytes (.fail e)],
      pins := { s.pins with dc := .known (dcDataLevel s.cfg) } }) ∨
    dataPhase bytes s = .stopped .hang { s with
      env := s.env.tail.tail, trace := s.trace ++ [.pin .dc (dcDataLevel s.cfg) .ok],
      pins := { s.pins with dc := .known (dcDataLevel s.cfg) } } := by
  unfold dataPhase
  rcases pinSet_cases .dc (dcDataLevel s.cfg) s with ⟨-, hp⟩ | ⟨e, -, hp⟩ | ⟨-, hp⟩ <;> rw [hp]
  · simp only [Run.done_andThen]
    generalize hu : (s.answered.log (.pin .dc (dcDataLevel s.cfg) .ok)).setPin .dc (.known (dcDataLevel s.cfg)) = u
    rcases busWrite_cases bytes u with ⟨-, hb⟩ | ⟨e, -, hb⟩ | ⟨-, hb⟩ <;> rw [hb] <;> subst hu
    · exact .inl (by simp [State.log, State.answered, State.setPin, dataEvents, Pins.set])
    · exact .inr (.inr (.inr (.inl ⟨e, by simp [State.log, State.answered, State.setPin, Pins.set]⟩)))
    · exact .inr (.inr (.inr (.inr (by simp [State.log, State.answered, State.setPin, Pins.set]))))
  · exact .inr (.inl ⟨e, by simp [State.log, State.answered, State.setPin, Pins.set]⟩)
  · exact .inr (.inr (.inl (by simp [State.answered, State.setPin, Pins.set])))

/-- Everything a pixel's data phase can do (R101, R124). -/
theorem sendData_cases (bytes : List Byte) (s : State) :
    sendData bytes s = .done { s with
      env := s.env.tail.tail, trace := s.trace ++ dataEvents s.cfg bytes,
      pins := { s.pins with dc := .known (dcDataLevel s.cfg) }, ghost := s.ghost.pixelReceived bytes } ∨
    (∃ e, sendData bytes s = .stopped (.err (.pinError e)) { s with
      env := s.env.tail, trace := s.trace ++ [.pin .dc (dcDataLevel s.cfg) (.fail e)],
      pins := { s.pins with dc := .unknown } }) ∨
    sendData bytes s = .stopped .hang { s with env := s.env.tail, pins := { s.pins with dc := .unknown } } ∨
    (∃ e, sendData bytes s = .stopped (.err (.busError e)) { s with
      env := s.env.tail.tail,
      trace := s.trace ++ [.pin .dc (dcDataLevel s.cfg) .ok, .bus bytes (.fail e)],
      pins := { s.pins with dc := .known (dcDataLevel s.cfg) }, ghost := s.ghost.pixelInDoubt }) ∨
    sendData bytes s = .stopped .hang { s with
      env := s.env.tail.tail, trace := s.trace ++ [.pin .dc (dcDataLevel s.cfg) .ok],
      pins := { s.pins with dc := .known (dcDataLevel s.cfg) }, ghost := s.ghost.pixelInDoubt } := by
  unfold sendData
  rcases pinSet_cases .dc (dcDataLevel s.cfg) s with ⟨-, hp⟩ | ⟨e, -, hp⟩ | ⟨-, hp⟩ <;> rw [hp]
  · simp only [Run.done_andThen]
    generalize hu : (s.answered.log (.pin .dc (dcDataLevel s.cfg) .ok)).setPin .dc (.known (dcDataLevel s.cfg)) = u
    rcases busWrite_cases bytes u with ⟨-, hb⟩ | ⟨e, -, hb⟩ | ⟨-, hb⟩ <;> rw [hb] <;> subst hu
    · exact .inl (by simp [State.onGhost, State.log, State.answered, State.setPin, dataEvents, Pins.set])
    · exact .inr (.inr (.inr (.inl ⟨e, by simp [State.onGhost, State.log, State.answered, State.setPin, Pins.set]⟩)))
    · exact .inr (.inr (.inr (.inr (by simp [State.onGhost, State.log, State.answered, State.setPin, Pins.set]))))
  · exact .inr (.inl ⟨e, by simp [State.log, State.answered, State.setPin, Pins.set]⟩)
  · exact .inr (.inr (.inl (by simp [State.answered, State.setPin, Pins.set])))

/-- A frame is its command phase, then its data phase if its parameters make one (R100). -/
theorem sendCommand_eq (cmd : Cmd) (params : Option (List Byte)) (s : State) :
    sendCommand cmd params s = (commandPhase cmd s).andThen fun u =>
      (if hasDataPhase u.cfg params then (dataPhase (params.getD []) u).onStop (Ghost.frameCut cmd) else .done u).andThen
        fun v => .done (v.onGhost (Ghost.frameReceived cmd (params.getD []))) := rfl

/-- The pixels of a stream leave the window and the stream flag alone (R62). -/
theorem pixelReceived_keeps (g : Ghost) (bytes : List Byte) :
    g.pixelReceived bytes = { g with ram := (g.pixelReceived bytes).ram, wptr := (g.pixelReceived bytes).wptr } := by
  unfold Ghost.pixelReceived
  split
  · rfl
  · split <;> rfl
  · rfl

end Sys2Proof.Machine
end

