-- ==== Sys2Proof/Tests/Slice0.lean ====
section
/-! SUPPORT. The model's own tests. Expected values come from spec/95_test_vectors.md and the encodings of spec/30_encoding.md,
not from the model; the source of each is named. Then, for every obligation with hypotheses, a state and operands that meet them. -/

namespace Sys2Proof.Tests

open Sys2Proof Sys2Proof.Machine

/-! ## Helpers -/

/-- The vectors' start state (95_test_vectors, conventions): attached, a `CS` pin present, trace empty, every call answered `ok`. -/
def attached : State :=
  { State.reset with life := .attached, res := some { bus := 1, pins := { dc := 2, rst := 3, cs := some 4 } } }

/-- The start state with no `CS` pin. -/
def noCs : State := { attached with res := some { bus := 1, pins := { dc := 2, rst := 3, cs := none } } }

/-- "fail at call k": the collaborators answer `fail 7` to the `k`-th pin or bus call. -/
def failAt (k : Nat) (s : State) : State := { s with env := List.replicate (k - 1) .ok ++ [.fail 7] }

/-- The start state with the controller in power state `p`. -/
def inPower (p : Power) : State := { attached with ghost := { attached.ghost with power := p } }

/-- The start state with a 16-bit pixel format in the controller. -/
def sixteen : State := { attached with ghost := { attached.ghost with colmod := .known 0x55 } }

/-- What a test looks at of an outcome's next state. -/
def after {α : Type} (o : Host.Outcome State Fault Refusal) (f : State → α) : Option α :=
  match o with
  | .next t => some (f t)
  | .fault _ => none
  | .refused _ => none

/-- Why an outcome is a refusal. -/
def whyRefused (o : Host.Outcome State Fault Refusal) : Option Refusal :=
  match o with
  | .next _ => none
  | .fault _ => none
  | .refused why => some why

/-- Whether an outcome is a next state. -/
def isNext (o : Host.Outcome State Fault Refusal) : Bool := (after o id).isSome

/-- The request of a word written as 18 hexadecimal digits, no side operand. -/
def reqOf (w : BitVec 72) : Request := .req (Req.ofWord w {})

/-- The four events of a frame with parameters under the default parameters. -/
def frame (op : Byte) (bytes : List Byte) : List Event := [.pin .dc .low .ok, .bus [op] .ok, .pin .dc .high .ok, .bus bytes .ok]

/-- The two events of a pixel under the default parameters. -/
def pixel (h l : Byte) : List Event := [.pin .dc .high .ok, .bus [h, l] .ok]

/-! ## Well-formedness (60_exceptions R195): what the checks refuse -/

/-- V39b: `0x54` is not a pixel format. -/
theorem test_wellFormed_refuses_colorMode : (Instr.colorMode 0x54).wellFormed Config.default = false := by decide
/-- R79: nor is it ever sent. -/
theorem test_wellFormed_refuses_colmod : (Instr.colmod 0x54).wellFormed Config.default = false := by decide
/-- R30: the eight formats are accepted. -/
theorem test_wellFormed_accepts_formats :
    ([0x53, 0x55, 0x56, 0x57, 0x63, 0x65, 0x66, 0x67].all fun f => (Instr.colorMode f).wellFormed Config.default) = true := by decide
/-- D2, D3, D4: a table with two equal opcodes, two fields on one bit, or no `0x55` does not meet the constraints. -/
theorem test_config_refuses :
    ¬ Config.Ok { Config.default with opc := { Config.default.opc with slpin := 0x01 } } ∧
    ¬ Config.Ok { Config.default with madctlBit := { Config.default.madctlBit with latch := 3 } } ∧
    ¬ Config.Ok { Config.default with colmodSet := [0x53, 0x54, 0x56, 0x57, 0x63, 0x65, 0x66, 0x67] } := by
  refine ⟨?_, ?_, ?_⟩ <;> decide
/-- R30, R76, R82, R181: nor does one whose `initialize` sends an illegal byte, with two equal selectors, or with an error code 0. -/
theorem test_config_refuses_more :
    ¬ Config.Ok { Config.default with initColmod := 0x54 } ∧
    ¬ Config.Ok { Config.default with initMadctl := 0x01 } ∧
    ¬ Config.Ok { Config.default with opsel := { Config.default.opsel with release := 0x01 } } ∧
    ¬ Config.Ok { Config.default with errCode := { Config.default.errCode with pinError := 0 } } := by
  refine ⟨?_, ?_, ?_, ?_⟩ <;> decide
/-- The default parameters meet them. -/
theorem test_config_default : Config.default.Ok := by decide

/-! ## Decoding: the words of R82 and the frames of R78, written out -/

/-- V23. -/
theorem test_decode_setColumnAddress : decode Config.default (reqOf 0x01000000EF00000000#72) = .ok (.setColumnAddress 0 239) := by decide
/-- V24. -/
theorem test_decode_setRowAddress : decode Config.default (reqOf 0x020000013F00000000#72) = .ok (.setRowAddress 0 319) := by decide
/-- V29. -/
theorem test_decode_setAddressWindow : decode Config.default (reqOf 0x030001000200030004#72) = .ok (.setAddressWindow 1 2 3 4) := by decide
/-- V2. -/
theorem test_decode_writeSinglePixel : decode Config.default (reqOf 0x04000A0014F8000000#72) = .ok (.writeSinglePixel 10 20 0xF800) := by decide
/-- V50. -/
theorem test_decode_hardReset : decode Config.default (reqOf 0x060000000000000000#72) = .ok .hardReset := by decide
/-- V51. -/
theorem test_decode_softReset : decode Config.default (reqOf 0x070000000000000000#72) = .ok .softReset := by decide
/-- V52. -/
theorem test_decode_sleepOut : decode Config.default (reqOf 0x080000000000000000#72) = .ok .sleepOut := by decide
/-- V53. -/
theorem test_decode_sleepIn : decode Config.default (reqOf 0x090000000000000000#72) = .ok .sleepIn := by decide
/-- V39. -/
theorem test_decode_colorMode : decode Config.default (reqOf 0x0A0055000000000000#72) = .ok (.colorMode 0x55) := by decide
/-- V37. -/
theorem test_decode_memoryAccessControl : decode Config.default (reqOf 0x0B0048000000000000#72) = .ok (.memoryAccessControl ⟨false, true, false, false, true, false⟩) := by decide
/-- V54. -/
theorem test_decode_displayOn : decode Config.default (reqOf 0x0C0000000000000000#72) = .ok .displayOn := by decide
/-- V55. -/
theorem test_decode_displayOff : decode Config.default (reqOf 0x0D0000000000000000#72) = .ok .displayOff := by decide
/-- V56. -/
theorem test_decode_inversionOn : decode Config.default (reqOf 0x0E0000000000000000#72) = .ok .inversionOn := by decide
/-- V57. -/
theorem test_decode_inversionOff : decode Config.default (reqOf 0x0F0000000000000000#72) = .ok .inversionOff := by decide
/-- V58. -/
theorem test_decode_partialDisplayMode : decode Config.default (reqOf 0x100000000000000000#72) = .ok .partialDisplayMode := by decide
/-- V59. -/
theorem test_decode_normalMode : decode Config.default (reqOf 0x110000000000000000#72) = .ok .normalMode := by decide
/-- V60. -/
theorem test_decode_idleOn : decode Config.default (reqOf 0x120000000000000000#72) = .ok .idleOn := by decide
/-- V61. -/
theorem test_decode_idleOff : decode Config.default (reqOf 0x130000000000000000#72) = .ok .idleOff := by decide
/-- V1. -/
theorem test_decode_initializePanel : decode Config.default (reqOf 0x140000000000000000#72) = .ok .initializePanel := by decide
/-- V65. -/
theorem test_decode_release : decode Config.default (reqOf 0x170000000000000000#72) = .ok .release := by decide
/-- V41, with its colour source. -/
theorem test_decode_writePixelStream :
    decode Config.default (.req (Req.ofWord 0x050001000200020003#72 { colors := [0x0001, 0x0203, 0xFFFF, 0x8000] })) =
      .ok (.writePixelStream 1 2 2 3 [0x0001, 0x0203, 0xFFFF, 0x8000]) := by decide
/-- V62 with a `CS` pin, V63 without: `a[0]` alone decides. -/
theorem test_decode_attach :
    decode Config.default (.req (Req.ofWord 0x150001000000000000#72 { bus := 1, dc := 2, rst := 3, cs := 4 })) =
      .ok (.attach 1 ⟨2, 3, some 4⟩) ∧
    decode Config.default (.req (Req.ofWord 0x15FFFE000000000000#72 { bus := 1, dc := 2, rst := 3, cs := 4 })) =
      .ok (.attach 1 ⟨2, 3, none⟩) := by decide
/-- V68. -/
theorem test_decode_attachConfig :
    decode Config.default (.req (Req.ofWord 0x160000000000000000#72 { bus := 1, dc := 2, rst := 3, cs := 4, configHasCs := true })) =
      .ok (.attachConfig 1 ⟨2, 3, some 4⟩) := by decide
/-- R71, R78. -/
theorem test_decode_swreset : decode Config.default (.frame [0x01]) = .ok .swreset := by decide
/-- R71, R78. -/
theorem test_decode_slpin : decode Config.default (.frame [0x10]) = .ok .slpin := by decide
/-- R71, R78. -/
theorem test_decode_slpout : decode Config.default (.frame [0x11]) = .ok .slpout := by decide
/-- R71, R78. -/
theorem test_decode_ptlon : decode Config.default (.frame [0x12]) = .ok .ptlon := by decide
/-- R71, R78. -/
theorem test_decode_noron : decode Config.default (.frame [0x13]) = .ok .noron := by decide
/-- R71, R78. -/
theorem test_decode_invoff : decode Config.default (.frame [0x20]) = .ok .invoff := by decide
/-- R71, R78. -/
theorem test_decode_invon : decode Config.default (.frame [0x21]) = .ok .invon := by decide
/-- R71, R78. -/
theorem test_decode_dispoff : decode Config.default (.frame [0x28]) = .ok .dispoff := by decide
/-- R71, R78. -/
theorem test_decode_dispon : decode Config.default (.frame [0x29]) = .ok .dispon := by decide
/-- R71, R78. -/
theorem test_decode_idmoff : decode Config.default (.frame [0x38]) = .ok .idmoff := by decide
/-- R71, R78. -/
theorem test_decode_idmon : decode Config.default (.frame [0x39]) = .ok .idmon := by decide
/-- R73, R78: start high, start low, end high, end low. -/
theorem test_decode_caset : decode Config.default (.frame [0x2A, 0x12, 0x34, 0x56, 0x78]) = .ok (.caset 0x1234 0x5678) := by decide
/-- R73, R78. -/
theorem test_decode_raset : decode Config.default (.frame [0x2B, 0x00, 0x00, 0x01, 0x3F]) = .ok (.raset 0 319) := by decide
/-- R74, R78. -/
theorem test_decode_ramwr : decode Config.default (.frame [0x2C, 0xF8, 0x00, 0x12, 0x34]) = .ok (.ramwr [0xF800, 0x1234]) := by decide
/-- R72, R78, V38. -/
theorem test_decode_madctl : decode Config.default (.frame [0x36, 0xFC]) = .ok (.madctl ⟨true, true, true, true, true, true⟩) := by decide
/-- R72, R78. -/
theorem test_decode_colmod : decode Config.default (.frame [0x3A, 0x55]) = .ok (.colmod 0x55) := by decide

/-- V69d, R83: selectors that name no operation. -/
theorem test_decode_refuses_selectors :
    decode Config.default (reqOf 0x000000000000000000#72) = .error (.unknownSelector 0x00) ∧
    decode Config.default (reqOf 0x180000000000000000#72) = .error (.unknownSelector 0x18) ∧
    decode Config.default (reqOf 0xFF0000000000000000#72) = .error (.unknownSelector 0xFF) := by decide
/-- R195: an orientation byte with bit 0 or bit 1 set (section 2.3). -/
theorem test_decode_refuses_orientation :
    decode Config.default (reqOf 0x0B0001000000000000#72) = .error (.orientationBits 0x01) ∧
    decode Config.default (reqOf 0x0B0002000000000000#72) = .error (.orientationBits 0x02) ∧
    decode Config.default (.frame [0x36, 0x03]) = .error (.orientationBits 0x03) := by decide
/-- R79, R80: an opcode that is no Command, a frame cut short, one too long, half a pixel, and no byte at all. -/
theorem test_decode_refuses_frames :
    decode Config.default (.frame [0x00]) = .error (.unknownOpcode 0x00) ∧
    decode Config.default (.frame [0x2A, 0, 10, 0]) = .error (.frameLength 0x2A) ∧
    decode Config.default (.frame [0x29, 0]) = .error (.frameLength 0x29) ∧
    decode Config.default (.frame [0x2C, 0xF8]) = .error (.frameLength 0x2C) ∧
    decode Config.default (.frame []) = .error .emptyFrame := by decide
/-- R81: operand fields a row does not use, `a[15:8]` of a byte operand among them, accept any value. -/
theorem test_decode_ignores_unused_fields :
    decode Config.default (reqOf 0x06FFFFFFFFFFFFFFFF#72) = .ok .hardReset ∧
    decode Config.default (reqOf 0x0AAB55FFFFFFFFFFFF#72) = .ok (.colorMode 0x55) ∧
    decode Config.default (reqOf 0x01000100020003FFFF#72) = .ok (.setColumnAddress 1 2) := by decide

/-- Words as spec/opcode_table.json numbers them, byte 0 the selector or the opcode (log 10). -/
theorem test_decodeTableWord :
    decodeTableWord 8 0x14 = some .initializePanel ∧ decodeTableWord 8 0x29 = some .dispon ∧
    decodeTableWord 8 0x04 = some (.writeSinglePixel 0 0 0) ∧ decodeTableWord 40 0x0B000A002A = some (.caset 10 11) ∧
    decodeTableWord 16 0x483A = some (.colmod 0x48) ∧ decodeTableWord 8 0x2C = some (.ramwr []) ∧
    decodeTableWord 72 0x040003000200010003 = some (.setAddressWindow 1 2 3 4) ∧ decodeTableWord 8 0x00 = none := by
  refine ⟨?_, ?_, ?_, ?_, ?_, ?_, ?_, ?_⟩ <;> decide
/-- From reset, the word presented is the very next thing that runs: V50 and V54's events (log 8). -/
theorem test_withFetchWord :
    after (step (State.reset.withFetchWord 8 0x0C)) State.trace = some [.pin .dc .low .ok, .bus [0x29] .ok] ∧
    after (step (State.reset.withFetchWord 8 0x15)) State.life = some .attached ∧
    after (step (State.reset.withFetchWord 8 0x17)) State.life = some .detached := by decide

/-- R6, 92_eei_decisions section 6: the selectors, the delays, the bytes of `initialize` and the error codes are the record's. -/
theorem test_parameters :
    decode { Config.default with opsel := { Config.default.opsel with release := 0x55 } } (reqOf 0x550000000000000000#72) = .ok .release ∧
    after (exec .sleepIn { attached with cfg := { Config.default with tSlpin := 6 } }) State.trace =
      some [.pin .dc .low .ok, .bus [0x10] .ok, .delay 6] ∧
    after (exec .initializePanel { attached with cfg := { Config.default with initColmod := 0x66, initMadctl := 0x08 } })
      (fun t => (t.ghost.colmod, t.ghost.madctl)) = some (.known 0x66, .known 0x08) ∧
    Result.code { Config.default with errCode := ⟨9, 8, 7, 6⟩ } ⟨some (.busError 1), none⟩ = 6 := by
  refine ⟨?_, ?_, ?_, ?_⟩ <;> decide

/-! ## Operand arithmetic (95_test_vectors 2.1, 2.3) -/

/-- V10 to V17. -/
theorem test_be16 :
    be16 0x0000 = [0x00, 0x00] ∧ be16 0x00EF = [0x00, 0xEF] ∧ be16 0x0100 = [0x01, 0x00] ∧ be16 0x1234 = [0x12, 0x34] ∧
    be16 0x7FFF = [0x7F, 0xFF] ∧ be16 0x8000 = [0x80, 0x00] ∧ be16 0xFFFF = [0xFF, 0xFF] ∧ be16 0xF800 = [0xF8, 0x00] := by decide
/-- Section 2.1: the comparison is unsigned. -/
theorem test_startAfterEnd :
    startAfterEnd 0 0 = false ∧ startAfterEnd 1 0 = true ∧ startAfterEnd 0x8000 0x7FFF = true ∧
    startAfterEnd 0xFFFF 0 = true ∧ startAfterEnd 0x7FFF 0x8000 = false := by decide
/-- V30 to V38. -/
theorem test_encodeMadctl :
    let enc := encodeMadctl Config.default.madctlBit
    enc ⟨false, false, false, false, false, false⟩ = 0x00 ∧ enc ⟨true, false, false, false, false, false⟩ = 0x80 ∧
    enc ⟨false, true, false, false, false, false⟩ = 0x40 ∧ enc ⟨false, false, true, false, false, false⟩ = 0x20 ∧
    enc ⟨false, false, false, true, false, false⟩ = 0x10 ∧ enc ⟨false, false, false, false, true, false⟩ = 0x08 ∧
    enc ⟨false, false, false, false, false, true⟩ = 0x04 ∧ enc ⟨false, true, false, false, true, false⟩ = 0x48 ∧
    enc ⟨true, true, true, true, true, true⟩ = 0xFC := by decide

/-! ## Addressing (95_test_vectors 2.2) -/

/-- V18, V20: nothing is sent; V26, V28: the whole range, and across the sign bit. -/
theorem test_setColumnAddress :
    after (exec (.setColumnAddress 1 0) attached) (fun t => (t.trace, t.results)) =
      some ([], [⟨some .invalidColumnAddress, none⟩]) ∧
    after (exec (.setColumnAddress 0x8000 0x7FFF) attached) (fun t => (t.trace, t.results)) =
      some ([], [⟨some .invalidColumnAddress, none⟩]) ∧
    after (exec (.setColumnAddress 0 0xFFFF) attached) State.trace = some (frame 0x2A [0x00, 0x00, 0xFF, 0xFF]) ∧
    after (exec (.setColumnAddress 0x7FFF 0x8000) attached) State.trace = some (frame 0x2A [0x7F, 0xFF, 0x80, 0x00]) := by
  refine ⟨?_, ?_, ?_, ?_⟩ <;> decide
/-- V19, V21. -/
theorem test_setRowAddress_invalid :
    after (exec (.setRowAddress 0xFFFF 0) attached) (fun t => (t.trace, t.results)) = some ([], [⟨some .invalidRowAddress, none⟩]) ∧
    after (exec (.setRowAddress 241 240) attached) (fun t => (t.trace, t.results)) =
      some ([], [⟨some .invalidRowAddress, none⟩]) := by decide
/-- V27: equal ends at the top. -/
theorem test_setRowAddress :
    after (exec (.setRowAddress 0xFFFF 0xFFFF) attached) (fun t => (t.trace, t.ghost.ys, t.ghost.ye)) =
      some (frame 0x2B [0xFF, 0xFF, 0xFF, 0xFF], .known 0xFFFF, .known 0xFFFF) := by decide
/-- V29: the column frame carries `a` and `c`, the row frame `b` and `d`. -/
theorem test_setAddressWindow :
    after (exec (.setAddressWindow 1 2 3 4) attached) State.trace =
      some (frame 0x2A [0x00, 0x01, 0x00, 0x03] ++ frame 0x2B [0x00, 0x02, 0x00, 0x04]) := by decide
/-- V22, V22b, V22c. -/
theorem test_setAddressWindow_invalid :
    after (exec (.setAddressWindow 5 9 7 3) attached) (fun t => (t.trace, t.results, t.ghost.xs, t.ghost.xe, t.ghost.ys)) =
      some (frame 0x2A [0x00, 0x05, 0x00, 0x07], [⟨some .invalidRowAddress, none⟩], .known 5, .known 7, .unknown) ∧
    after (exec (.setAddressWindow 7 3 5 9) attached) (fun t => (t.trace, t.results)) =
      some ([], [⟨some .invalidColumnAddress, none⟩]) ∧
    after (exec (.setAddressWindow 7 9 5 3) attached) (fun t => (t.trace, t.results)) =
      some ([], [⟨some .invalidColumnAddress, none⟩]) := by decide
/-- V29a to V29d: where a frame is cut. -/
theorem test_setColumnAddress_cut :
    after (exec (.setColumnAddress 0 239) (failAt 1 attached)) (fun t => (t.trace, t.results, t.pins.dc)) =
      some ([.pin .dc .low (.fail 7)], [⟨some (.pinError 7), none⟩], .unknown) ∧
    after (exec (.setColumnAddress 0 239) (failAt 2 attached)) (fun t => (t.trace, t.results, t.pins.dc)) =
      some ([.pin .dc .low .ok, .bus [0x2A] (.fail 7)], [⟨some (.busError 7), none⟩], .known .low) ∧
    after (exec (.setColumnAddress 0 239) (failAt 3 attached)) (fun t => (t.trace, t.results, t.pins.dc)) =
      some ([.pin .dc .low .ok, .bus [0x2A] .ok, .pin .dc .high (.fail 7)], [⟨some (.pinError 7), none⟩], .unknown) ∧
    after (exec (.setColumnAddress 0 239) (failAt 4 attached)) (fun t => (t.trace, t.results, t.pins.dc)) =
      some ([.pin .dc .low .ok, .bus [0x2A] .ok, .pin .dc .high .ok, .bus [0x00, 0x00, 0x00, 0xEF] (.fail 7)],
        [⟨some (.busError 7), none⟩], .known .high) := by
  refine ⟨?_, ?_, ?_, ?_⟩ <;> decide

/-! ## Pixel writes (95_test_vectors 2.4) -/

/-- V2: the document's pixel. -/
theorem test_writeSinglePixel :
    after (exec (.writeSinglePixel 10 20 0xF800) sixteen) (fun t => (t.trace, t.ghost.ram.readPixel 10 20, t.ghost.wptr)) =
      some (frame 0x2A [0x00, 0x0A, 0x00, 0x0A] ++ frame 0x2B [0x00, 0x14, 0x00, 0x14] ++
        [.pin .dc .low .ok, .bus [0x2C] .ok] ++ pixel 0xF8 0x00, .known 0xF800, .unknown) := by decide
/-- V49: the `RAMWR` pin set fails; and V40's cell outside the panel is claimed nothing of. -/
theorem test_writeSinglePixel_cut :
    after (exec (.writeSinglePixel 10 20 0xF800) (failAt 9 sixteen))
      (fun t => (t.results, t.pins.dc, [t.ghost.xs, t.ghost.ye], t.ghost.ramwrOpen)) =
      some ([⟨some (.pinError 7), none⟩], .unknown, [.unknown, .unknown], .unknown) ∧
    after (exec (.writeSinglePixel 0xFFFF 0xFFFF 0) sixteen) (fun t => (t.trace.length, t.pixel 0xFFFF 0xFFFF)) =
      some (12, .unknown) := by
  refine ⟨?_, ?_⟩ <;> decide
/-- V41: four pixels, row-major; V42 to V44: none, too few, too many. -/
theorem test_writePixelStream :
    after (exec (.writePixelStream 1 2 2 3 [0x0001, 0x0203, 0xFFFF, 0x8000]) sixteen)
      (fun t => (t.trace, [t.ghost.ram.readPixel 1 2, t.ghost.ram.readPixel 2 2, t.ghost.ram.readPixel 1 3, t.ghost.ram.readPixel 2 3])) =
      some (frame 0x2A [0x00, 0x01, 0x00, 0x02] ++ frame 0x2B [0x00, 0x02, 0x00, 0x03] ++ [.pin .dc .low .ok, .bus [0x2C] .ok] ++
        pixel 0x00 0x01 ++ pixel 0x02 0x03 ++ pixel 0xFF 0xFF ++ pixel 0x80 0x00,
        [.known 0x0001, .known 0x0203, .known 0xFFFF, .known 0x8000]) ∧
    after (exec (.writePixelStream 0 0 1 1 []) sixteen) (fun t => (t.trace.length, t.ghost.ramwrOpen, t.ghost.wptr)) =
      some (10, .known true, .known (0, 0)) ∧
    after (exec (.writePixelStream 0 0 1 1 [0x1111]) sixteen) (fun t => (t.trace.length, t.ghost.ram.readPixel 0 0, t.ghost.wptr)) =
      some (12, .known 0x1111, .known (1, 0)) ∧
    after (exec (.writePixelStream 0 0 0 0 [0xAAAA, 0xBBBB]) sixteen)
      (fun t => (t.trace.length, t.results, t.ghost.ram.readPixel 0 0, t.ghost.wptr)) =
      some (14, [⟨none, none⟩], .unknown, .unknown) := by
  refine ⟨?_, ?_, ?_, ?_⟩ <;> decide
/-- V45, V46: an invalid window; V48: the third pixel's bus write fails. -/
theorem test_writePixelStream_cut :
    after (exec (.writePixelStream 3 0 1 0 [0x1234]) sixteen) (fun t => (t.trace, t.results)) =
      some ([], [⟨some .invalidColumnAddress, none⟩]) ∧
    after (exec (.writePixelStream 1 3 1 0 [0x1234]) sixteen) (fun t => (t.trace, t.results, t.ghost.xs, t.ghost.xe)) =
      some (frame 0x2A [0x00, 0x01, 0x00, 0x01], [⟨some .invalidRowAddress, none⟩], .known 1, .known 1) ∧
    after (exec (.writePixelStream 1 2 2 3 [0x0001, 0x0203, 0xFFFF, 0x8000]) (failAt 16 sixteen))
      (fun t => (t.trace.length, t.results, [t.ghost.ram.readPixel 1 2, t.ghost.ram.readPixel 2 2, t.ghost.ram.readPixel 1 3, t.ghost.xs])) =
      some (16, [⟨some (.busError 7), none⟩], [.known 0x0001, .known 0x0203, .unknown, .unknown]) := by
  refine ⟨?_, ?_, ?_⟩ <;> decide

/-! ## Resets, sleep, modes (95_test_vectors 2.3, 2.5) -/

/-- V50. -/
theorem test_hardReset :
    after (exec .hardReset (inPower .displaying)) (fun t => (t.trace, t.ghost.power, t.pins.rst)) =
      some ([.pin .rst .high .ok, .delay 1, .pin .rst .low .ok, .delay 1, .pin .rst .high .ok, .delay 120],
        .poweredReset, .known .high) := by decide
/-- V8: a failing pin set at the second call. -/
theorem test_hardReset_cut :
    after (exec .hardReset (failAt 2 attached)) (fun t => (t.trace, t.results, t.pins.rst, t.ghost.power)) =
      some ([.pin .rst .high .ok, .delay 1, .pin .rst .low (.fail 7)], [⟨some (.pinError 7), none⟩], .unknown, .unspecified) := by decide
/-- V51. -/
theorem test_softReset :
    after (exec .softReset (inPower .poweredReset)) (fun t => (t.trace, t.ghost.power)) =
      some ([.pin .dc .low .ok, .bus [0x01] .ok, .delay 150], .registersDefault) ∧
    after (exec .softReset (inPower .displaying)) (fun t => t.ghost.power) = some .unspecified := by decide
/-- V52. -/
theorem test_sleepOut :
    after (exec .sleepOut (inPower .registersDefault)) (fun t => (t.trace, t.ghost.power)) =
      some ([.pin .dc .low .ok, .bus [0x11] .ok, .delay 500], .awake) ∧
    after (exec .sleepOut (inPower .displaying)) (fun t => t.ghost.power) = some .unspecified := by decide
/-- V53. -/
theorem test_sleepIn :
    after (exec .sleepIn (inPower .displaying)) (fun t => (t.trace, t.ghost.power)) =
      some ([.pin .dc .low .ok, .bus [0x10] .ok, .delay 5], .sleeping) := by decide
/-- R152, D15 (d): sleep in changes the power state and nothing else, an open stream included. -/
theorem test_sleepIn_nothing_else :
    let mid : Ghost := { sixteen.ghost with power := .awake, xs := .known 1, wptr := .known (1, 2), ramwrOpen := .known true, ram := [(3, 0x12)] }
    after (exec .sleepIn { sixteen with ghost := mid }) State.ghost = some { mid with power := .sleeping } := by decide
/-- V39, V39b. -/
theorem test_colorMode :
    after (exec (.colorMode 0x55) attached) (fun t => (t.trace, t.ghost.colmod)) =
      some (frame 0x3A [0x55] ++ [.delay 10], .known 0x55) ∧
    whyRefused (exec (.colorMode 0x54) attached) = some (.pixelFormat 0x54) := by decide
/-- V39c: no delay after a failed bus write; R104, R189: the register is Unknown too when the opcode's bus write or the second pin set
fails, and as it was when the first pin set fails. -/
theorem test_colorMode_cut :
    after (exec (.colorMode 0x55) (failAt 4 attached)) (fun t => (t.trace, t.results, t.ghost.colmod)) =
      some ([.pin .dc .low .ok, .bus [0x3A] .ok, .pin .dc .high .ok, .bus [0x55] (.fail 7)], [⟨some (.busError 7), none⟩], .unknown) ∧
    after (exec (.colorMode 0x55) (failAt 3 sixteen)) (fun t => (t.results, t.ghost.colmod)) = some ([⟨some (.pinError 7), none⟩], .unknown) ∧
    after (exec (.colorMode 0x55) (failAt 2 sixteen)) (fun t => (t.results, t.ghost.colmod)) = some ([⟨some (.busError 7), none⟩], .unknown) ∧
    after (exec (.colorMode 0x55) (failAt 1 sixteen)) (fun t => t.ghost.colmod) = some (.known 0x55) := by
  refine ⟨?_, ?_, ?_, ?_⟩ <;> decide
/-- V37. -/
theorem test_memoryAccessControl :
    after (exec (.memoryAccessControl ⟨false, true, false, false, true, false⟩) (inPower .awake)) (fun t => (t.trace, t.ghost.madctl, t.ghost.power)) =
      some (frame 0x36 [0x48], .known 0x48, .awake) := by decide
/-- V54. -/
theorem test_displayOn :
    after (exec .displayOn (inPower .awake)) (fun t => (t.trace, t.ghost.power)) =
      some ([.pin .dc .low .ok, .bus [0x29] .ok], .displaying) ∧
    after (exec .displayOn (inPower .sleeping)) (fun t => t.ghost.power) = some .unspecified := by decide
/-- V55. -/
theorem test_displayOff :
    after (exec .displayOff (inPower .displaying)) (fun t => (t.trace, t.ghost.power)) =
      some ([.pin .dc .low .ok, .bus [0x28] .ok], .unspecified) := by decide
/-- V56. -/
theorem test_inversionOn :
    after (exec .inversionOn (inPower .awake)) (fun t => (t.trace, t.ghost.inversion, t.ghost.power)) =
      some ([.pin .dc .low .ok, .bus [0x21] .ok], .known .on, .awake) := by decide
/-- V57. -/
theorem test_inversionOff :
    after (exec .inversionOff attached) (fun t => (t.trace, t.ghost.inversion)) =
      some ([.pin .dc .low .ok, .bus [0x20] .ok], .known .off) := by decide
/-- V58. -/
theorem test_partialDisplayMode :
    after (exec .partialDisplayMode (inPower .displaying)) (fun t => (t.trace, t.ghost.region, t.ghost.power)) =
      some ([.pin .dc .low .ok, .bus [0x12] .ok], .known .partialArea, .displaying) := by decide
/-- V59. -/
theorem test_normalMode :
    after (exec .normalMode attached) (fun t => (t.trace, t.ghost.region)) =
      some ([.pin .dc .low .ok, .bus [0x13] .ok], .known .normal) := by decide
/-- V60. -/
theorem test_idleOn :
    after (exec .idleOn attached) (fun t => (t.trace, t.ghost.idle)) = some ([.pin .dc .low .ok, .bus [0x39] .ok], .known .on) := by decide
/-- V61. -/
theorem test_idleOff :
    after (exec .idleOff attached) (fun t => (t.trace, t.ghost.idle)) = some ([.pin .dc .low .ok, .bus [0x38] .ok], .known .off) := by decide
/-- Section 2.5: fail at call 1, and at call 2, of a mode command. -/
theorem test_modeCommand_cut :
    after (exec .idleOn (failAt 1 attached)) (fun t => (t.trace, t.results, t.ghost.idle)) =
      some ([.pin .dc .low (.fail 7)], [⟨some (.pinError 7), none⟩], .unknown) ∧
    after (exec .sleepOut (failAt 2 (inPower .sleeping))) (fun t => (t.trace, t.results, t.ghost.power)) =
      some ([.pin .dc .low .ok, .bus [0x11] (.fail 7)], [⟨some (.busError 7), none⟩], .unspecified) := by decide

/-! ## Lifecycle and bring-up (95_test_vectors 2.6, 2.8, V1) -/

/-- V62, V63. -/
theorem test_attach :
    after (exec (.attach 1 ⟨2, 3, some 4⟩) State.reset) (fun t => (t.trace, t.life, t.hasCs, t.pins)) =
      some ([.pin .cs .low .ok], .attached, true, ⟨.unknown, .unknown, .known .low⟩) ∧
    after (exec (.attach 1 ⟨2, 3, none⟩) State.reset) (fun t => (t.trace, t.life, t.hasCs, t.pins)) =
      some ([], .attached, false, ⟨.unknown, .unknown, .unknown⟩) := by decide
/-- V64. -/
theorem test_attach_cut :
    after (exec (.attach 1 ⟨2, 3, some 4⟩) (failAt 1 State.reset)) (fun t => (t.trace, t.life, t.results, t.pins.cs)) =
      some ([.pin .cs .low (.fail 7)], .attached, [⟨some (.pinError 7), none⟩], .unknown) := by decide
/-- V68. -/
theorem test_attachConfig :
    after (exec (.attachConfig 1 ⟨2, 3, some 4⟩) State.reset) (fun t => (t.trace, t.life, t.hasCs)) =
      some ([.pin .cs .low .ok], .attached, true) := by decide
/-- V65, V66: the resources go back to the host. -/
theorem test_release :
    after (exec .release attached) (fun t => (t.trace, t.life, t.pins.cs, t.results)) =
      some ([.pin .cs .high .ok], .detached, .known .high, [⟨none, some ⟨1, ⟨2, 3, some 4⟩⟩⟩]) ∧
    after (exec .release noCs) (fun t => (t.trace, t.life)) = some ([], .detached) := by decide
/-- V67: detached whatever follows. -/
theorem test_release_cut :
    after (exec .release (failAt 1 attached)) (fun t => (t.trace, t.life, t.pins.cs, t.results.map Result.err)) =
      some ([.pin .cs .high (.fail 7)], .detached, .unknown, [some (.pinError 7)]) := by decide
/-- V1: the document's bring-up scenario, its 35 events. -/
theorem test_initializePanel :
    after (exec .initializePanel attached) State.trace =
      some ([.pin .rst .high .ok, .delay 1, .pin .rst .low .ok, .delay 1, .pin .rst .high .ok, .delay 120,
        .pin .dc .low .ok, .bus [0x01] .ok, .delay 150, .pin .dc .low .ok, .bus [0x11] .ok, .delay 500] ++
        frame 0x3A [0x55] ++ [.delay 10] ++ frame 0x36 [0x00] ++
        frame 0x2A [0x00, 0x00, 0x00, 0xF0] ++ frame 0x2B [0x00, 0x00, 0x00, 0xF0] ++
        [.pin .dc .low .ok, .bus [0x21] .ok, .pin .dc .low .ok, .bus [0x13] .ok, .pin .dc .low .ok, .bus [0x29] .ok]) := by decide
/-- V70, V71, V72, V73. -/
theorem test_initializePanel_cut :
    after (exec .initializePanel (failAt 2 attached)) (fun t => (t.trace.length, t.pins.rst, t.ghost.power)) =
      some (3, .unknown, .unspecified) ∧
    after (exec .initializePanel (failAt 4 attached)) (fun t => (t.trace.length, t.pins.dc, t.ghost.power)) =
      some (7, .unknown, .poweredReset) ∧
    after (exec .initializePanel (failAt 5 attached)) (fun t => (t.trace.length, t.results, t.ghost.power)) =
      some (8, [⟨some (.busError 7), none⟩], .unspecified) ∧
    after (exec .initializePanel (failAt 12 attached)) (fun t => (t.trace.length, t.ghost.power, t.ghost.colmod, t.life)) =
      some (18, .awake, .known 0x55, .attached) := by
  refine ⟨?_, ?_, ?_, ?_⟩ <;> decide

/-! ## Refusals (95_test_vectors 2.7), the chain, and a call that never returns -/

/-- V69a to V69c. -/
theorem test_refusals :
    whyRefused (exec .displayOn State.reset) = some .notAttached ∧ whyRefused (exec .release State.reset) = some .notAttached ∧
    whyRefused (exec (.attach 1 ⟨2, 3, none⟩) attached) = some .notDetached ∧
    whyRefused (exec (.attachConfig 1 ⟨2, 3, none⟩) attached) = some .notDetached ∧
    whyRefused (exec .displayOn { attached with busy := true }) = some .busy := by decide
/-- P3, chain A: the error ends the chain; R86. -/
theorem test_chain :
    after (step { attached with chain := [reqOf 0x030005000900070003#72, reqOf 0x0C0000000000000000#72] })
      (fun t => (t.chain, t.results)) = some ([], [⟨some .invalidRowAddress, none⟩]) ∧
    after (step { attached with chain := [reqOf 0x030005000300070009#72, reqOf 0x0C0000000000000000#72] })
      (fun t => (t.chain, t.results)) = some ([reqOf 0x0C0000000000000000#72], [⟨none, none⟩]) := by decide
/-- R218, U5: the call has no event, the operation no result, the block stays busy. -/
theorem test_hang :
    after (exec .displayOn { attached with env := [.ok, .never] }) (fun t => (t.trace, t.results, t.busy)) =
      some ([.pin .dc .low .ok], [], true) := by decide

/-! ## The wire frames as instructions (30_encoding R71 to R74, 40_framer R100) -/

/-- R71: two events and no delay. -/
theorem test_swreset : after (exec .swreset attached) State.trace = some [.pin .dc .low .ok, .bus [0x01] .ok] := by decide
/-- R71: two events and no delay. -/
theorem test_slpin : after (exec .slpin attached) State.trace = some [.pin .dc .low .ok, .bus [0x10] .ok] := by decide
/-- R71: two events and no delay. -/
theorem test_slpout : after (exec .slpout attached) State.trace = some [.pin .dc .low .ok, .bus [0x11] .ok] := by decide
/-- R71: two events and no delay. -/
theorem test_ptlon : after (exec .ptlon attached) State.trace = some [.pin .dc .low .ok, .bus [0x12] .ok] := by decide
/-- R71: two events and no delay. -/
theorem test_noron : after (exec .noron attached) State.trace = some [.pin .dc .low .ok, .bus [0x13] .ok] := by decide
/-- R71: two events and no delay. -/
theorem test_invoff : after (exec .invoff attached) State.trace = some [.pin .dc .low .ok, .bus [0x20] .ok] := by decide
/-- R71: two events and no delay. -/
theorem test_invon : after (exec .invon attached) State.trace = some [.pin .dc .low .ok, .bus [0x21] .ok] := by decide
/-- R71: two events and no delay. -/
theorem test_dispoff : after (exec .dispoff attached) State.trace = some [.pin .dc .low .ok, .bus [0x28] .ok] := by decide
/-- R71: two events and no delay. -/
theorem test_dispon : after (exec .dispon attached) State.trace = some [.pin .dc .low .ok, .bus [0x29] .ok] := by decide
/-- R71: two events and no delay. -/
theorem test_idmoff : after (exec .idmoff attached) State.trace = some [.pin .dc .low .ok, .bus [0x38] .ok] := by decide
/-- R71: two events and no delay. -/
theorem test_idmon : after (exec .idmon attached) State.trace = some [.pin .dc .low .ok, .bus [0x39] .ok] := by decide
/-- R73; the framer compares no coordinates (R100 corner case 5). -/
theorem test_caset :
    after (exec (.caset 0x0102 0x0001) attached) (fun t => (t.trace, t.ghost.xs, t.ghost.xe)) =
      some (frame 0x2A [0x01, 0x02, 0x00, 0x01], .known 0x0102, .known 1) := by decide
/-- R73. -/
theorem test_raset :
    after (exec (.raset 0 319) attached) (fun t => (t.trace, t.ghost.ys, t.ghost.ye)) =
      some (frame 0x2B [0x00, 0x00, 0x01, 0x3F], .known 0, .known 319) := by decide
/-- R74, and R215: with no window set the pixel is at an unknown place. -/
theorem test_ramwr :
    after (exec (.ramwr [0xF800]) sixteen) (fun t => (t.trace, t.ghost.wptr, t.ghost.ram)) =
      some ([.pin .dc .low .ok, .bus [0x2C] .ok] ++ pixel 0xF8 0x00, .unknown, []) := by decide
/-- R72. -/
theorem test_madctl :
    after (exec (.madctl ⟨true, false, false, false, false, false⟩) attached) (fun t => (t.trace, t.ghost.madctl)) =
      some (frame 0x36 [0x80], .known 0x80) := by decide
/-- R72: no delay in the frame itself; a byte outside the set is never sent (R79). -/
theorem test_colmod :
    after (exec (.colmod 0x66) attached) (fun t => (t.trace, t.ghost.colmod)) = some (frame 0x3A [0x66], .known 0x66) ∧
    whyRefused (exec (.colmod 0x00) attached) = some (.pixelFormat 0x00) := by decide

/-! ## The wire view and the text form -/

/-- R33, V2: the thirteen wire bytes of the document's pixel, `2A 00 0A 00 0A | 2B 00 14 00 14 | 2C F8 00`. -/
theorem test_wire :
    (after (exec (.writeSinglePixel 10 20 0xF800) attached) (fun t => wireFrames Config.default (wire (fun _ => 0) t.trace))) =
      some [⟨0x2A, [0x00, 0x0A, 0x00, 0x0A]⟩, ⟨0x2B, [0x00, 0x14, 0x00, 0x14]⟩, ⟨0x2C, [0xF8, 0x00]⟩] := by decide
/-- R33: a failed bus write reaches the controller up to an unspecified prefix, then `Broken`. -/
theorem test_wire_broken :
    wire (fun _ => 1) [.pin .dc .high .ok, .bus [0xFF, 0xFF] (.fail 7), .pin .rst .low (.fail 7), .delay 5] =
      [.byte (.known .high) 0xFF, .broken, .rst .unknown, .wait 5] := by decide
/-- R12: the wire trace forgets the pin calls that change no level and the bus writes of no byte; R33's walk has an item for each `RST` call. -/
theorem test_wireSeen :
    let trace : List Event := [.pin .rst .high .ok, .pin .rst .high .ok, .bus [] (.fail 7), .pin .rst .low .ok, .pin .cs .low (.fail 7), .delay 1]
    wireSeen (fun _ => 0) trace = [.rst (.known .high), .rst (.known .low), .cs .unknown, .wait 1] ∧
    wire (fun _ => 0) trace =
      [.rst (.known .high), .rst (.known .high), .broken, .rst (.known .low), .cs .unknown, .wait 1] := by decide
/-- R84's own examples. -/
theorem test_text :
    parseLine Config.default "set_column_address 0, 239".toList = some (reqOf 0x01000000EF00000000#72) ∧
    parseLine Config.default "color_mode 0x55".toList = some (reqOf 0x0A0055000000000000#72) ∧
    parseLine Config.default "hard_reset".toList = some (reqOf 0x060000000000000000#72) ∧
    parseLine Config.default "; nothing".toList = none := by decide


/-! ## Witnesses: for every obligation with hypotheses, a state and operands that meet them, a boundary value for each clause -/

/-- A request word with selector `sel` and operand `a`, as an instruction stream of one. -/
def asks (sel : Byte) (a : Word) : State := { attached with chain := [.req { sel, a, b := 0, c := 0, d := 0, side := {} }] }

theorem witness_DecodeOfEncodeIsTheInstruction :
    Config.default.Ok ∧ (Instr.colorMode 0x67).wellFormed Config.default = true ∧
    (Instr.attach 1 ⟨2, 3, none⟩).wellFormed Config.default = true ∧ (Instr.ramwr []).wellFormed Config.default = true := by decide
theorem witness_ReservedSelectorsHaveNoStep :
    ((asks 0x00 0).chain = [.req ⟨0x00, 0, 0, 0, 0, {}⟩] ∧ (0x00#8).toNat = 0) ∧
    ((asks 0x18 0).chain = [.req ⟨0x18, 0, 0, 0, 0, {}⟩] ∧ 0x18 ≤ (0x18#8).toNat) ∧ 0x18 ≤ (0xFF#8).toNat ∧
    (asks 0 0).cfg.opsel = Config.default.opsel ∧
    0x17#8 ∉ { Config.default.opsel with release := 0x55 }.toList := by decide
theorem witness_IllFormedRequestsHaveNoStep :
    (asks 0x18 0).cfg.opsel = Config.default.opsel ∧
    ((asks 0x18 0).chain = [.req ⟨0x18, 0, 0, 0, 0, {}⟩] ∧ 0x18 ≤ (0x18#8).toNat) ∧
    ((asks 0x0A 0x54).chain = [.req ⟨0x0A, 0x54, 0, 0, 0, {}⟩] ∧ lo8 0x54 ∉ (asks 0x0A 0x54).cfg.colmodSet) ∧
    ((asks 0x0B 2).chain = [.req ⟨0x0B, 2, 0, 0, 0, {}⟩] ∧ (asks 0x0B 2).cfg.madctlBit = Config.default.madctlBit ∧
      (2#16).getLsbD 1 = true ∧ (1#16).getLsbD 0 = true) ∧
    (∀ cmd ∈ allCmds, opcode Config.default cmd ≠ 0x00) := by decide
theorem witness_noCommandHasOpcodeZero : ∀ cmd : Cmd, opcode Config.default cmd ≠ 0x00 := by intro cmd; cases cmd <;> decide
theorem witness_OrientationByteIsTheUnionOfItsFields :
    Config.default.madctlBit.toList.Nodup ∧ (⟨0, 1, 2, 3, 4, 5⟩ : MadctlBits).toList.Nodup := by decide
theorem witness_StepRunsTheNextRequest :
    decode (asks 0x0C 0).cfg (.req ⟨0x0C, 0, 0, 0, 0, {}⟩) = .ok .displayOn ∧
    decode (asks 0x00 0).cfg (.req ⟨0x00, 0, 0, 0, 0, {}⟩) = .error (.unknownSelector 0) ∧
    (State.reset.chain = [] ∧ State.reset.busy = false) := by decide
theorem witness_ChainEndsAtTheFirstError :
    (∃ t, step (asks 0x0C 0) = .next t ∧ t.results = (asks 0x0C 0).results ++ [⟨none, none⟩]) ∧
    (∃ t, step (failAt 1 (asks 0x0C 0)) = .next t ∧ t.results = (failAt 1 (asks 0x0C 0)).results ++ [⟨some (.pinError 7), none⟩]) :=
  ⟨⟨_, rfl, rfl⟩, ⟨_, rfl, rfl⟩⟩
theorem witness_OperationsOutOfTurnHaveNoStep :
    ({ attached with busy := true } : State).busy = true ∧ State.reset.life = .detached ∧ attached.life = .attached := by decide
theorem witness_LifecycleMovesOnlyByAttachAndRelease :
    isNext (exec (.attach 1 ⟨2, 3, none⟩) State.reset) = true ∧ isNext (exec (.attachConfig 1 ⟨2, 3, none⟩) State.reset) = true ∧
    isNext (exec .release attached) = true ∧ isNext (exec .displayOn attached) = true := by decide
theorem witness_ResultCodesAreTheErrorTable : Config.default.Ok := by decide
theorem witness_ResetLeavesTheListedState : isNext (exec (.attach 1 ⟨2, 3, none⟩) State.reset) = true := by decide
theorem witness_CapabilityPrimitivesRecordTheirCall :
    attached.answer = .ok ∧ (failAt 1 attached).answer = .fail 7 := by decide
theorem witness_WindowParametersAreBigEndian :
    attached.Ready ∧ attached.AnswersOk 4 ∧ (0x00FF : Word) ≤ 0x0100 ∧ (0xFFFF : Word) ≤ 0xFFFF := by decide
/-- Every clause of the two addressing statements: out of order by one, equal, and each place of failure. -/
theorem witness_SetColumnAddressOutcomes :
    attached.Ready ∧ (0x7FFF : Word) < 0x8000 ∧ (5 : Word) ≤ 5 ∧ attached.AnswersOk 4 ∧
    (failAt 1 attached).Ready ∧ (failAt 1 attached).env = [.fail 7] ∧ (failAt 2 attached).env = [.ok, .fail 7] ∧
    (failAt 3 attached).env = [.ok, .ok, .fail 7] ∧ (failAt 4 attached).env = [.ok, .ok, .ok, .fail 7] := by decide
theorem witness_SetRowAddressOutcomes :
    attached.Ready ∧ (240 : Word) < 241 ∧ (0xFFFF : Word) ≤ 0xFFFF ∧ attached.AnswersOk 4 ∧
    (failAt 1 attached).Ready ∧ (failAt 1 attached).env = [.fail 7] ∧ (failAt 2 attached).env = [.ok, .fail 7] ∧
    (failAt 3 attached).env = [.ok, .ok, .fail 7] ∧ (failAt 4 attached).env = [.ok, .ok, .ok, .fail 7] := by decide
/-- The premises of every clause that names a selector of R82. -/
theorem witness_selectorClauses :
    Config.default.opsel = Config.default.opsel ∧ (⟨0x16, 0, 0, 0, 0, { configHasCs := true, cs := 4 }⟩ : Req).sel = 0x16#8 ∧
    (⟨0x15, 1, 0, 0, 0, {}⟩ : Req).sel = 0x15#8 := by decide
theorem witness_InvalidColumnExactlyWhenStartIsAfterEnd :
    attached.Ready ∧ (1 : Word).toNat > (0 : Word).toNat ∧
    setColumnAddress 1 0 attached = .stopped (.err .invalidColumnAddress) attached := by decide
theorem witness_InvalidRowExactlyWhenStartIsAfterEnd :
    attached.Ready ∧ attached.AnswersOk 4 ∧ (9 : Word).toNat > (3 : Word).toNat ∧ (5 : Word) ≤ 7 ∧
    setRowAddress 9 3 attached = .stopped (.err .invalidRowAddress) attached := by decide
theorem witness_SetAddressWindowSendsColumnThenRow :
    (∃ why t, setColumnAddress 7 5 attached = .stopped why t) ∧ (∃ t, setColumnAddress 5 7 attached = .done t) ∧
    attached.Ready ∧ attached.AnswersOk 8 ∧ (1 : Word) ≤ 3 ∧ (2 : Word) ≤ 2 ∧ (5 : Word) < 7 :=
  ⟨⟨_, _, rfl⟩, ⟨_, rfl⟩, by decide⟩
theorem witness_WriteSinglePixelStoresThePixel :
    attached.Ready ∧ attached.AnswersOk 12 ∧ sixteenBit sixteen.ghost.colmod = true ∧ sixteenBit attached.ghost.colmod = false ∧
    sixteen.Ready ∧ sixteen.AnswersOk 12 ∧ (239 : Word).toNat < sixteen.cfg.panelW ∧ sixteen.cfg.panelH ≤ (240 : Word).toNat ∧
    ((239, 238) : Word × Word) ≠ (239, 239) := by decide
theorem witness_WritePixelStreamSendsEveryColour :
    attached.Ready ∧ attached.AnswersOk (12 + 2 * 0) ∧ (0 : Word) ≤ 1 ∧ attached.cfg.emptyParamsDataPhase = false := by decide
theorem witness_StreamFillsTheWindowRowMajor :
    sixteen.Ready ∧ (1 : Word) ≤ 2 ∧ (2 : Word) ≤ 3 ∧ [0x0001, 0x0203, 0xFFFF, 0x8000].length ≤ pixelCount 1 2 2 3 ∧
    sixteen.AnswersOk (12 + 2 * 4) ∧ sixteenBit sixteen.ghost.colmod = true := by decide
theorem witness_ExcessColourForgetsTheFrameMemory :
    sixteen.Ready ∧ (0 : Word) ≤ 0 ∧ pixelCount 0 0 0 0 < [0xAAAA, 0xBBBB].length ∧ sixteen.AnswersOk (12 + 2 * 2) ∧
    sixteenBit sixteen.ghost.colmod = true := by decide
theorem witness_StreamOfOneColourIsSinglePixel : attached.cfg.emptyParamsDataPhase = false := by decide
theorem witness_FailedPixelWriteLosesTheAddressing :
    (failAt 9 sixteen).answer = .ok ∧
    (∃ t, exec (.writeSinglePixel 10 20 0xF800) (failAt 9 sixteen) = .next t ∧
      t.results = (failAt 9 sixteen).results ++ [⟨some (.pinError 7), none⟩]) ∧
    (∃ t, exec (.writePixelStream 0 0 1 1 [1]) (failAt 2 sixteen) = .next t ∧
      t.results = (failAt 2 sixteen).results ++ [⟨some (.busError 7), none⟩]) ∧
    (∃ t, exec (.ramwr [1]) (failAt 4 sixteen) = .next t ∧
      t.results = (failAt 4 sixteen).results ++ [⟨some (.busError 7), none⟩]) :=
  ⟨rfl, ⟨_, rfl, rfl⟩, ⟨_, rfl, rfl⟩, ⟨_, rfl, rfl⟩⟩
/-- V48: the third pixel of four; and the last pixel of a window that is filled exactly. -/
theorem witness_PixelsBeforeAFailureAreWritten :
    (failAt 16 sixteen).Ready ∧ (failAt 16 sixteen).env = List.replicate (11 + 2 * 2) .ok ++ .fail 7 :: [] ∧
    (failAt 18 sixteen).env = List.replicate (11 + 2 * 3) .ok ++ .fail 7 :: [] ∧
    sixteenBit (failAt 16 sixteen).ghost.colmod = true ∧ (failAt 16 sixteen).cfg.emptyParamsDataPhase = false ∧
    [0x0001, 0x0203, 0xFFFF, 0x8000].length ≤ pixelCount 1 2 2 3 ∧ 3 < [0x0001, 0x0203, 0xFFFF, 0x8000].length := by decide
theorem witness_HardResetOutcomes :
    attached.Ready ∧ attached.AnswersOk 3 ∧ (failAt 1 attached).env = [.fail 7] ∧ (failAt 2 attached).env = [.ok, .fail 7] ∧
    (failAt 3 attached).env = [.ok, .ok, .fail 7] := by decide
/-- The three premises of `SendsOneOpcode`. -/
theorem witness_SendsOneOpcode :
    attached.Ready ∧ attached.AnswersOk 2 ∧ (failAt 1 attached).Ready ∧ (failAt 1 attached).env = [.fail 7] ∧
    (failAt 2 attached).Ready ∧ (failAt 2 attached).env = [.ok, .fail 7] := by decide
theorem witness_SoftResetOutcomes :
    attached.Ready ∧ attached.AnswersOk 2 ∧ (failAt 1 attached).env = [.fail 7] ∧ (failAt 2 attached).env = [.ok, .fail 7] ∧
    (inPower .poweredReset).Ready := by decide
theorem witness_SleepOutcomes :
    (inPower .sleeping).Ready ∧ (inPower .sleeping).AnswersOk 2 ∧ (inPower .displaying).Ready ∧
    (failAt 1 attached).env = [.fail 7] ∧ (failAt 2 attached).env = [.ok, .fail 7] := by decide
theorem witness_ModeCommandOutcomes :
    (inPower .awake).Ready ∧ (inPower .awake).AnswersOk 2 ∧ (failAt 1 attached).env = [.fail 7] ∧
    (failAt 2 attached).env = [.ok, .fail 7] := by decide
theorem witness_ConfigurationRegistersAreWritten :
    attached.Ready ∧ attached.AnswersOk 4 ∧ 0x53#8 ∈ attached.cfg.colmodSet ∧ 0x67#8 ∈ attached.cfg.colmodSet ∧
    0x52#8 ∉ attached.cfg.colmodSet ∧ 0x68#8 ∉ attached.cfg.colmodSet := by decide
theorem witness_CutFrameLeavesItsRegisterUnknown :
    (failAt 1 attached).Ready ∧ (failAt 1 attached).env = .fail 7 :: [] ∧ (failAt 2 attached).env = .ok :: .fail 7 :: [] ∧
    (failAt 3 attached).env = .ok :: .ok :: .fail 7 :: [] ∧ (failAt 4 attached).env = .ok :: .ok :: .ok :: .fail 7 :: [] ∧
    (Instr.colorMode 0x55).wellFormed (failAt 4 attached).cfg = true ∧ (Instr.caset 5 3).wellFormed (failAt 4 attached).cfg = true := by decide
theorem witness_AttachOutcomes :
    State.reset.Unattached ∧ State.reset.cfg.csLowOnAttach = true ∧ State.reset.AnswersOk 1 ∧ (some 4 : Option Handle) ≠ none ∧
    (failAt 1 State.reset).Unattached ∧ (failAt 1 State.reset).env = [.fail 7] ∧ (⟨2, 3, none⟩ : PinBundle).cs = none := by decide
theorem witness_AttachConfigIsAttach : State.reset.Unattached ∧ State.reset.AnswersOk 1 := by decide
theorem witness_ReleaseOutcomes :
    noCs.Ready ∧ noCs.hasCs = false ∧ attached.Ready ∧ attached.hasCs = true ∧ attached.AnswersOk 1 ∧
    (failAt 1 attached).hasCs = true ∧ (failAt 1 attached).env = [.fail 7] := by decide
theorem witness_InitializeBringsTheDisplayUp : attached.Ready ∧ attached.AnswersOk 29 ∧ attached.cfg.Ok := by decide
theorem witness_InitializeWireFrames : attached.Ready ∧ attached.AnswersOk 29 ∧ attached.cfg = Config.default := by decide
theorem witness_OpcodeFramesComplete :
    attached.Ready ∧ attached.AnswersOk 2 ∧ (failAt 1 attached).env = [.fail 7] ∧ (failAt 2 attached).env = [.ok, .fail 7] := by decide
theorem witness_ParameterFramesComplete :
    attached.Ready ∧ attached.AnswersOk 4 ∧ 0x66#8 ∈ attached.cfg.colmodSet ∧ 0x00#8 ∉ attached.cfg.colmodSet := by decide
/-- The start state with a window of four pixels set and 16 bits a pixel. -/
def windowed : State :=
  { sixteen with ghost := { sixteen.ghost with xs := .known 1, xe := .known 2, ys := .known 3, ye := .known 4 } }
theorem witness_PixelStreamFrameCompletes :
    windowed.Ready ∧ windowed.AnswersOk (2 + 2 * 4) ∧ windowed.ghost.windowStart = .known (1, 3) ∧ (1 : Word) ≤ 2 ∧ (3 : Word) ≤ 4 ∧
    sixteenBit windowed.ghost.colmod = true ∧ [0x0001, 0x0203, 0xFFFF, 0x8000].length ≤ pixelCount 1 3 2 4 ∧
    attached.Ready ∧ attached.AnswersOk (2 + 2 * 1) ∧ attached.ghost.windowStart = .unknown := by decide
/-- A success, a failure and a hang; and each kind of life state an instruction needs. -/
theorem witness_EveryOperationFollowsItsCalls :
    (attached.busy = false ∧ attached.life = lifeNeeded .initializePanel) ∧ State.reset.life = lifeNeeded (.attach 1 ⟨2, 3, none⟩) ∧
    (Instr.colorMode 0x55).wellFormed attached.cfg = true ∧
    (follow (plan attached .displayOn).err (plan attached .displayOn).events []).2 = none ∧
    (follow (plan attached .displayOn).err (plan attached .displayOn).events [.ok, .fail 7]).2 = some (.err (.busError 7)) ∧
    (follow (plan attached .displayOn).err (plan attached .displayOn).events [.never]).2 = some .hang := by decide
theorem witness_ErrorsArePreciseInTheTrace :
    (∃ t, exec .displayOn (failAt 1 attached) = .next t ∧ t.results = (failAt 1 attached).results ++ [⟨some (.pinError 7), none⟩]) ∧
    (∃ t, exec .displayOn (failAt 2 attached) = .next t ∧ t.results = (failAt 2 attached).results ++ [⟨some (.busError 7), none⟩]) ∧
    (∃ t, exec (.setRowAddress 1 0) attached = .next t ∧ t.results = attached.results ++ [⟨some .invalidRowAddress, none⟩]) ∧
    (∃ t, exec .displayOn { attached with env := [.never] } = .next t ∧ t.busy = true) :=
  ⟨⟨_, rfl, rfl⟩, ⟨_, rfl, rfl⟩, ⟨_, rfl, rfl⟩, ⟨_, rfl, rfl⟩⟩
theorem witness_EveryBusWriteStandsInItsPhase : isNext (exec (.writeSinglePixel 1 2 3) (failAt 12 attached)) = true := by decide
theorem witness_OnlyTheTablesDelaysOccur : isNext (exec .sleepOut attached) = true := by decide
theorem witness_PinsAreDrivenByTheirOwners :
    isNext (exec .hardReset attached) = true ∧ isNext (exec .release attached) = true ∧
    isNext (exec (.attach 1 ⟨2, 3, none⟩) State.reset) = true ∧ isNext (exec .displayOn attached) = true := by decide
theorem witness_HungBlockTakesNoMoreRequests :
    (∃ t, exec .displayOn { attached with env := [.never] } = .next t ∧ t.busy = true) ∧
    ({ attached with env := [.never] } : State).Ready := ⟨⟨_, rfl, rfl⟩, by decide⟩
/-- A controller no run reaches: an open stream outside its window. -/
def openStream : Ghost :=
  { sixteen.ghost with
    xs := .known 9, xe := .known 1, ys := .known 3, ye := .known 3, wptr := .known (4, 4), ramwrOpen := .known true,
    madctl := .known 0xFC, ram := [(3, 0x12)] }
/-- From reset, and from a state no run reaches: an open stream with every register known. -/
theorem witness_InvariantKeptByEveryStep :
    (State.reset.Inv ∧ isNext (step State.reset) = true) ∧ ((asks 0x0C 0).Inv ∧ isNext (step (asks 0x0C 0)) = true) ∧
    ({ sixteen with ghost := openStream } : State).Inv := by
  refine ⟨?_, ?_, ?_⟩ <;> decide
theorem witness_WindowStaysOrderedUnderRequests :
    decode attached.cfg (.req ⟨0x01, 5, 5, 0, 0, {}⟩) = .ok (.setColumnAddress 5 5) ∧
    isNext (exec (.setColumnAddress 5 5) attached) = true ∧ attached.ghost.xs = .unknown ∧ attached.ghost.ys = .unknown := by decide
theorem witness_HandleOperationsFrame :
    isNext (exec (.writePixelStream 0 0 1 1 [1]) attached) = true ∧ isNext (exec (.ramwr [1]) attached) = true ∧
    isNext (exec .softReset (failAt 2 attached)) = true := by decide
theorem witness_OneFrameOperationsFrame :
    oneCommand (.setColumnAddress 5 5) = some .caset ∧ isNext (exec (.setColumnAddress 5 5) (failAt 3 attached)) = true ∧
    oneCommand .softReset = some .swreset ∧ isNext (exec .softReset attached) = true := by decide
theorem witness_WindowAndPixelOperationsFrame :
    isNext (exec (.setAddressWindow 5 9 7 3) attached) = true ∧ isNext (exec (.writeSinglePixel 1 2 3) attached) = true ∧
    isNext (exec (.writePixelStream 0 0 1 1 [1]) (failAt 12 attached)) = true ∧ isNext (exec (.ramwr []) attached) = true := by decide
theorem witness_SinglePixelMemoryFrame :
    sixteenBit sixteen.ghost.colmod = true ∧ isNext (exec (.writeSinglePixel 0 0 3) sixteen) = true ∧
    (2 : Nat) ≠ pixelAddr 0 0 ∧ (2 : Nat) ≠ pixelAddr 0 0 + 1 := by decide
theorem witness_PixelStreamMemoryFrame :
    sixteenBit sixteen.ghost.colmod = true ∧ [0x0001, 0x0203].length ≤ pixelCount 0 0 1 0 ∧
    isNext (exec (.writePixelStream 0 0 1 0 [0x0001, 0x0203]) sixteen) = true ∧
    (windowed.ghost.xs = .known 1 ∧ windowed.ghost.ye = .known 4 ∧ isNext (exec (.ramwr [0x0001, 0x0203]) windowed) = true) ∧
    (∀ k < 2, (4 : Nat) ≠ pixelAddr (BitVec.ofNat 16 (k % 2)) (BitVec.ofNat 16 (k / 2))) := by decide
theorem witness_LifecycleFrame :
    isNext (exec (.attach 1 ⟨2, 3, some 4⟩) (failAt 1 State.reset)) = true ∧ isNext (exec .release { attached with hostUsesBus := false }) = true ∧
    isNext (exec .hardReset attached) = true ∧ isNext (exec .initializePanel (failAt 4 attached)) = true := by decide
theorem witness_ReceiverReadsWholeFrames :
    attached.cfg.Ok ∧ (∃ t, exec (.writeSinglePixel 1 2 3) attached = .next t ∧ t.results = attached.results ++ [⟨none, none⟩]) :=
  ⟨by decide, ⟨_, rfl, rfl⟩⟩
theorem witness_AdapterDrawsThroughPixelWritesOnly :
    Config.default.Ok ∧ (Draw.perPixel [(1, 2, 3), (4, 5, 6)]).operations = [.writeSinglePixel 1 2 3, .writeSinglePixel 4 5 6] := by decide

end Sys2Proof.Tests
end

/-! An instruction that sends one frame with parameters, when every call succeeds; the parameter bytes of a single-axis window. -/

namespace Sys2Proof.Machine

/-! ## The bytes of an operand as quotient and remainder -/

theorem hi8_eq_ofNat_div (v : Word) : hi8 v = BitVec.ofNat 8 (v.toNat / 256) := by
  apply BitVec.eq_of_toNat_eq
  simp [hi8, BitVec.extractLsb'_toNat, Nat.shiftRight_eq_div_pow]

theorem lo8_eq_ofNat_mod (v : Word) : lo8 v = BitVec.ofNat 8 (v.toNat % 256) := by
  apply BitVec.eq_of_toNat_eq
  simp [lo8, BitVec.extractLsb'_toNat]

/-- The window's parameter bytes by division (20_memory R52). -/
theorem windowBytes_eq_ofNat (start last : Word) :
    windowBytes start last =
      [BitVec.ofNat 8 (start.toNat / 256), BitVec.ofNat 8 (start.toNat % 256),
       BitVec.ofNat 8 (last.toNat / 256), BitVec.ofNat 8 (last.toNat % 256)] := by
  simp only [windowBytes, be16, hi8_eq_ofNat_div, lo8_eq_ofNat_mod, List.cons_append, List.nil_append]

/-! ## An operation that sends one frame with parameters -/

/-- An operation on the handle that sends one frame with a data phase and nothing else, when its four calls succeed (R100). -/
theorem handleOp_sendCommand_some_ok {cmd : Cmd} {bytes : List Byte} {s : State} (hr : s.Ready)
    (hb : hasDataPhase s.cfg (some bytes) = true) (h : s.AnswersOk 4) :
    handleOp (sendCommand cmd (some bytes)) s = .next { s.succeeded 4 (frameEvents s.cfg cmd bytes) with
      pins := { s.pins with dc := .known (dcDataLevel s.cfg) },
      ghost := (s.ghost.opcodeReceived cmd).frameReceived cmd bytes } := by
  obtain ⟨hbusy, hlife⟩ := hr
  rw [handleOp_ready hbusy hlife, sendCommand_some_ok (s := s.accept) hb h]
  simp [finish, State.returns, State.succeeded, hbusy]

/-! ## The single-axis operations with the start not after the end -/

theorem startAfterEnd_of_le {start last : Word} (h : start ≤ last) : startAfterEnd start last = false := by
  simpa [startAfterEnd] using h

/-- In order, set_column_address sends its frame (R110). -/
theorem exec_setColumnAddress_of_le {start last : Word} (h : start ≤ last) (s : State) :
    exec (.setColumnAddress start last) s = handleOp (sendCommand .caset (some (windowBytes start last))) s := by
  have hbody : setColumnAddress start last = sendCommand .caset (some (windowBytes start last)) := by
    funext u
    simp [setColumnAddress, startAfterEnd_of_le h]
  rw [← hbody]
  rfl

/-- In order, set_row_address sends its frame (R111). -/
theorem exec_setRowAddress_of_le {start last : Word} (h : start ≤ last) (s : State) :
    exec (.setRowAddress start last) s = handleOp (sendCommand .raset (some (windowBytes start last))) s := by
  have hbody : setRowAddress start last = sendCommand .raset (some (windowBytes start last)) := by
    funext u
    simp [setRowAddress, startAfterEnd_of_le h]
  rw [← hbody]
  rfl

/-- What the host and the bus see of a window frame that succeeds, for either axis's command (R52, R100). -/
theorem handleOp_windowFrame_ok (cmd : Cmd) {start last : Word} {s : State} (hr : s.Ready) (h : s.AnswersOk 4) :
    ∃ t, handleOp (sendCommand cmd (some (windowBytes start last))) s = .next t ∧ t.results = s.results ++ [⟨none, none⟩] ∧
      t.trace = s.trace ++
        [.pin .dc s.cfg.dcCmdLevel .ok, .bus [opcode s.cfg cmd] .ok, .pin .dc (dcDataLevel s.cfg) .ok,
         .bus [BitVec.ofNat 8 (start.toNat / 256), BitVec.ofNat 8 (start.toNat % 256),
               BitVec.ofNat 8 (last.toNat / 256), BitVec.ofNat 8 (last.toNat % 256)] .ok] := by
  refine ⟨_, handleOp_sendCommand_some_ok hr rfl h, rfl, ?_⟩
  rw [← windowBytes_eq_ofNat]
  rfl

/-- Settles O15: in order, each single-axis operation is one window frame, and a window frame's bytes are the quotients and
remainders of its operands by 256. -/
theorem windowParametersAreBigEndian : Obligations.WindowParametersAreBigEndian := by
  intro s start last hready hok hle p hp
  simp only [List.mem_cons, List.not_mem_nil, or_false] at hp
  rcases hp with rfl | rfl
  · rw [exec_setColumnAddress_of_le hle]
    exact handleOp_windowFrame_ok .caset hready hok
  · rw [exec_setRowAddress_of_le hle]
    exact handleOp_windowFrame_ok .raset hready hok

end Sys2Proof.Machine

/-! The selectors that name no operation: decoding refuses them, and so does the step that would take them. -/

namespace Sys2Proof.Machine

/-- The table's list is the selectors of the operations, in the order of R82. -/
theorem opsel_toList_eq_map_selector (cfg : Config) : cfg.opsel.toList = allOps.map (selector cfg) := rfl

/-- A selector names no operation exactly when the table does not hold it (R83). -/
theorem opOfSelector_eq_none_iff {cfg : Config} {sel : Byte} : opOfSelector cfg sel = none ↔ sel ∉ cfg.opsel.toList := by
  simp [opsel_toList_eq_map_selector, opOfSelector]

/-- The selectors of R82 fill the range `0x01` to `0x17` and nothing beyond it. -/
theorem default_selectors_in_range : ∀ sel ∈ Config.default.opsel.toList, sel.toNat ≠ 0 ∧ sel.toNat < 0x18 := by decide

theorem decode_req_of_unknownSelector {cfg : Config} {r : Req} (h : r.sel ∉ cfg.opsel.toList) :
    decode cfg (.req r) = .error (.unknownSelector r.sel) := by
  simp [decode, decodeReq, opOfSelector_eq_none_iff.2 h]

/-- A request that decoding refuses has no step, whatever the block is doing (R83, R195). -/
theorem step_of_decode_error {s : State} {r : Request} {rest : List Request} {why : Reject} (hc : s.chain = r :: rest)
    (hd : decode s.cfg r = .error why) : step s = .refused (.illFormed why) := by
  simp [step, hc, hd]

/-- Settles O4: the selector is in no row of the table, by the range of R82's selectors or by hypothesis, so decoding refuses
it and the step with it. -/
theorem reservedSelectorsHaveNoStep : Obligations.ReservedSelectorsHaveNoStep := by
  intro s r rest hreserved
  have hsel : r.sel ∉ s.cfg.opsel.toList := by
    rcases hreserved with ⟨hdefault, hout⟩ | habsent
    · rw [hdefault]
      intro hmem
      obtain ⟨hne, hlt⟩ := default_selectors_in_range r.sel hmem
      omega
    · exact habsent
  have hdecode := decode_req_of_unknownSelector hsel
  exact ⟨hdecode, fun hchain => step_of_decode_error hchain hdecode⟩

end Sys2Proof.Machine

/-! A frame with parameters cut short at each of its four calls;
the single-axis window operations under each behaviour of the collaborators. -/

namespace Sys2Proof.Machine

/-! ## A request whose selector is in the table -/

/-- A selector of the table names its operation, and the operand fields are read for it (R81, R82). -/
theorem decode_req_selector {cfg : Config} (hn : cfg.opsel.toList.Nodup) {r : Req} {op : Op} (h : r.sel = selector cfg op) :
    decode cfg (.req r) = decodeOp cfg op r := by
  simp [decode, decodeReq, h, opOfSelector_selector hn]

/-- The selectors of R82 are distinct. -/
theorem default_selectors_nodup : Config.default.opsel.toList.Nodup := by decide

/-- The selector is read from the record's table alone. -/
theorem selector_congr {cfg cfg' : Config} (h : cfg.opsel = cfg'.opsel) (op : Op) : selector cfg op = selector cfg' op := by
  unfold selector
  rw [h]

/-- With R82's table, a selector of R82 names its operation. -/
theorem decode_req_default_selector {cfg : Config} (hd : cfg.opsel = Config.default.opsel) {r : Req} {op : Op}
    (h : r.sel = selector Config.default op) : decode cfg (.req r) = decodeOp cfg op r :=
  decode_req_selector (hd ▸ default_selectors_nodup) (h.trans (selector_congr hd op).symm)

/-! ## The phases of a frame when one of their calls fails -/

theorem answer_of_env {s : State} {a : Answer} {rest : List Answer} (h : s.env = a :: rest) : s.answer = a := by
  simp [State.answer, h]

/-- Answers that begin with `n` successes make the next `n` calls succeed. -/
theorem answersOk_of_env {s : State} {n : Nat} {rest : List Answer} (h : s.env = List.replicate n .ok ++ rest) :
    s.AnswersOk n := by
  intro a ha
  rw [h, List.take_left' List.length_replicate] at ha
  exact List.eq_of_mem_replicate ha

/-- The pin call of a command phase fails: nothing is sent (R100, R104). -/
theorem commandPhase_pin_fail {cmd : Cmd} {s : State} {e : ErrorValue} {rest : List Answer} (h : s.env = .fail e :: rest) :
    commandPhase cmd s = .stopped (.err (.pinError e)) { s with
      env := s.env.drop 1, trace := s.trace ++ [.pin .dc s.cfg.dcCmdLevel (.fail e)], pins := { s.pins with dc := .unknown } } := by
  unfold commandPhase
  rw [pinSet_of_fail (answer_of_env h)]
  simp [State.setPin, State.log, State.answered, Pins.set]

/-- The opcode's bus call fails: the opcode is in doubt (R104, R151). -/
theorem commandPhase_bus_fail {cmd : Cmd} {s : State} {e : ErrorValue} {rest : List Answer} (h : s.env = .ok :: .fail e :: rest) :
    commandPhase cmd s = .stopped (.err (.busError e)) { s with
      env := s.env.drop 2, trace := s.trace ++ [.pin .dc s.cfg.dcCmdLevel .ok, .bus [opcode s.cfg cmd] (.fail e)],
      pins := { s.pins with dc := .known s.cfg.dcCmdLevel }, ghost := s.ghost.opcodeInDoubt cmd } := by
  unfold commandPhase
  rw [pinSet_of_ok (answer_of_env h), Run.done_andThen, busWrite_of_fail (e := e) (by simp [State.answer, h])]
  simp [State.onGhost, State.setPin, State.log, State.answered, Pins.set, h]

/-- The pin call of a data phase fails: none of its bytes is sent (R100, R104). -/
theorem dataPhase_pin_fail {bytes : List Byte} {s : State} {e : ErrorValue} {rest : List Answer} (h : s.env = .fail e :: rest) :
    dataPhase bytes s = .stopped (.err (.pinError e)) { s with
      env := s.env.drop 1, trace := s.trace ++ [.pin .dc (dcDataLevel s.cfg) (.fail e)], pins := { s.pins with dc := .unknown } } := by
  unfold dataPhase
  rw [pinSet_of_fail (answer_of_env h)]
  simp [State.setPin, State.log, State.answered, Pins.set]

/-- The bus call of a data phase fails (R100, R104). -/
theorem dataPhase_bus_fail {bytes : List Byte} {s : State} {e : ErrorValue} {rest : List Answer}
    (h : s.env = .ok :: .fail e :: rest) :
    dataPhase bytes s = .stopped (.err (.busError e)) { s with
      env := s.env.drop 2, trace := s.trace ++ [.pin .dc (dcDataLevel s.cfg) .ok, .bus bytes (.fail e)],
      pins := { s.pins with dc := .known (dcDataLevel s.cfg) } } := by
  unfold dataPhase
  rw [pinSet_of_ok (answer_of_env h), Run.done_andThen, busWrite_of_fail (e := e) (by simp [State.answer, h])]
  simp [State.setPin, State.log, State.answered, Pins.set, h]

/-! ## A frame cut short -/

/-- A command phase that is cut short ends its frame (R186). -/
theorem sendCommand_of_commandPhase_stopped {cmd : Cmd} {params : Option (List Byte)} {s t : State} {why : Stop}
    (h : commandPhase cmd s = .stopped why t) : sendCommand cmd params s = .stopped why t := by
  rw [sendCommand_eq, h]
  rfl

/-- A data phase that is cut short ends its frame, what the frame would have written then `Unknown` (R151, R189). -/
theorem sendCommand_of_dataPhase_stopped {cmd : Cmd} {bytes : List Byte} {s u t : State} {why : Stop}
    (hc : commandPhase cmd s = .done u) (hb : hasDataPhase u.cfg (some bytes) = true)
    (hd : dataPhase bytes u = .stopped why t) :
    sendCommand cmd (some bytes) s = .stopped why (t.onGhost (Ghost.frameCut cmd)) := by
  simp [sendCommand_eq, hc, hb, hd]

/-- An operation on the handle that is cut short by an error returns it, with nothing rolled back (R186). -/
theorem handleOp_of_stopped {body : State → Run} {s t : State} {e : Err} (hr : s.Ready)
    (h : body s.accept = .stopped (.err e) t) : handleOp body s = .next (t.returns ⟨some e, none⟩) := by
  obtain ⟨hbusy, hlife⟩ := hr
  rw [handleOp_ready hbusy hlife, h]
  rfl

section
variable {cmd : Cmd} {params : Option (List Byte)} {bytes : List Byte} {s : State} {e : ErrorValue} {rest : List Answer}

/-- One frame, cut at its first pin call: nothing was sent. -/
theorem handleOp_sendCommand_commandPin_fail (hr : s.Ready) (h : s.env = .fail e :: rest) :
    handleOp (sendCommand cmd params) s = .next { s.failed 1 [.pin .dc s.cfg.dcCmdLevel (.fail e)] (.pinError e) with
      pins := { s.pins with dc := .unknown } } := by
  rw [handleOp_of_stopped hr (sendCommand_of_commandPhase_stopped (commandPhase_pin_fail (s := s.accept) h))]
  simp [State.returns, State.failed, hr.1]

/-- One frame, cut at its opcode: the opcode is in doubt. -/
theorem handleOp_sendCommand_opcode_fail (hr : s.Ready) (h : s.env = .ok :: .fail e :: rest) :
    handleOp (sendCommand cmd params) s = .next
      { s.failed 2 [.pin .dc s.cfg.dcCmdLevel .ok, .bus [opcode s.cfg cmd] (.fail e)] (.busError e) with
        pins := { s.pins with dc := .known s.cfg.dcCmdLevel }, ghost := s.ghost.opcodeInDoubt cmd } := by
  rw [handleOp_of_stopped hr (sendCommand_of_commandPhase_stopped (commandPhase_bus_fail (s := s.accept) h))]
  simp [State.returns, State.failed, hr.1]

/-- One frame, cut at its second pin call: the opcode alone was sent. -/
theorem handleOp_sendCommand_dataPin_fail (hr : s.Ready) (hb : hasDataPhase s.cfg (some bytes) = true)
    (h : s.env = .ok :: .ok :: .fail e :: rest) :
    handleOp (sendCommand cmd (some bytes)) s = .next
      { s.failed 3 (commandEvents s.cfg cmd ++ [.pin .dc (dcDataLevel s.cfg) (.fail e)]) (.pinError e) with
        pins := { s.pins with dc := .unknown }, ghost := (s.ghost.opcodeReceived cmd).frameCut cmd } := by
  have hc := commandPhase_ok (cmd := cmd) (s := s.accept) (answersOk_of_env (n := 2) h)
  rw [handleOp_of_stopped hr (sendCommand_of_dataPhase_stopped hc hb
    (dataPhase_pin_fail (e := e) (rest := rest) (by simp [h])))]
  simp [State.returns, State.failed, State.onGhost, hr.1]

/-- One frame, cut at its bytes: the opcode was sent, and the bytes may have been sent in part. -/
theorem handleOp_sendCommand_bytes_fail (hr : s.Ready) (hb : hasDataPhase s.cfg (some bytes) = true)
    (h : s.env = .ok :: .ok :: .ok :: .fail e :: rest) :
    handleOp (sendCommand cmd (some bytes)) s = .next
      { s.failed 4 (commandEvents s.cfg cmd ++ [.pin .dc (dcDataLevel s.cfg) .ok, .bus bytes (.fail e)]) (.busError e) with
        pins := { s.pins with dc := .known (dcDataLevel s.cfg) }, ghost := (s.ghost.opcodeReceived cmd).frameCut cmd } := by
  have hc := commandPhase_ok (cmd := cmd) (s := s.accept) (answersOk_of_env (n := 2) h)
  rw [handleOp_of_stopped hr (sendCommand_of_dataPhase_stopped hc hb
    (dataPhase_bus_fail (e := e) (rest := rest) (by simp [h])))]
  simp [State.returns, State.failed, State.onGhost, hr.1]

end

/-! ## The single-axis operations -/

theorem startAfterEnd_of_lt {start last : Word} (h : last < start) : startAfterEnd start last = true := by
  simpa [startAfterEnd] using h

/-- An operation on the handle that raises at once made no call and changed nothing but the result and the chain (R186). -/
theorem handleOp_raise {body : State → Run} {s : State} {e : Err} (hr : s.Ready) (h : body s.accept = raise e s.accept) :
    handleOp body s = .next (s.failed 0 [] e) := by
  rw [handleOp_of_stopped hr h]
  simp [State.returns, State.failed, State.accept, hr.1]

/-- Out of order, set_column_address only returns its error (R110, R182). -/
theorem exec_setColumnAddress_of_lt {start last : Word} {s : State} (hr : s.Ready) (h : last < start) :
    exec (.setColumnAddress start last) s = .next (s.failed 0 [] .invalidColumnAddress) :=
  handleOp_raise (body := setColumnAddress start last) hr (by simp [setColumnAddress, startAfterEnd_of_lt h])

/-- Out of order, set_row_address only returns its error (R111, R183). -/
theorem exec_setRowAddress_of_lt {start last : Word} {s : State} (hr : s.Ready) (h : last < start) :
    exec (.setRowAddress start last) s = .next (s.failed 0 [] .invalidRowAddress) :=
  handleOp_raise (body := setRowAddress start last) hr (by simp [setRowAddress, startAfterEnd_of_lt h])

/-- The controller reads the column window back from the frame's bytes (R62). -/
theorem frameReceived_caset_windowBytes (start last : Word) (g : Ghost) :
    (g.opcodeReceived .caset).frameReceived .caset (windowBytes start last) =
      { g with xs := .known start, xe := .known last, ramwrOpen := .known false } := by
  simp [Ghost.opcodeReceived, Ghost.frameReceived, windowBytes, be16]

/-- The controller reads the row window back from the frame's bytes (R62). -/
theorem frameReceived_raset_windowBytes (start last : Word) (g : Ghost) :
    (g.opcodeReceived .raset).frameReceived .raset (windowBytes start last) =
      { g with ys := .known start, ye := .known last, ramwrOpen := .known false } := by
  simp [Ghost.opcodeReceived, Ghost.frameReceived, windowBytes, be16]

/-- Settles O16: out of order the operation raises at once; in order it is one CASET frame, which completes or is cut short at
one of its four calls, the last three of which leave the column window `Unknown`. -/
theorem setColumnAddressOutcomes : Obligations.SetColumnAddressOutcomes := by
  refine ⟨fun cfg r hd hs => decode_req_default_selector hd (op := .setColumnAddress) hs, ?_⟩
  intro s start last hr
  have hexec (h : start ≤ last) := exec_setColumnAddress_of_le h s
  refine ⟨exec_setColumnAddress_of_lt hr, fun hle hok => ?_, fun hle e rest he => ?_, fun hle e rest he => ?_,
    fun hle e rest he => ?_, fun hle e rest he => ?_⟩
  · rw [hexec hle, handleOp_sendCommand_some_ok hr rfl hok, frameReceived_caset_windowBytes]
    rfl
  · exact (hexec hle).trans (handleOp_sendCommand_commandPin_fail hr he)
  · exact ⟨_, (hexec hle).trans (handleOp_sendCommand_opcode_fail hr he), rfl, rfl⟩
  · exact ⟨_, (hexec hle).trans (handleOp_sendCommand_dataPin_fail hr rfl he), rfl, rfl⟩
  · exact ⟨_, (hexec hle).trans (handleOp_sendCommand_bytes_fail hr rfl he), rfl, rfl⟩

/-- Settles O17: out of order the operation raises at once; in order it is one RASET frame, which completes or is cut short at
one of its four calls, the last three of which leave the row window `Unknown`. -/
theorem setRowAddressOutcomes : Obligations.SetRowAddressOutcomes := by
  refine ⟨fun cfg r hd hs => decode_req_default_selector hd (op := .setRowAddress) hs, ?_⟩
  intro s start last hr
  have hexec (h : start ≤ last) := exec_setRowAddress_of_le h s
  refine ⟨exec_setRowAddress_of_lt hr, fun hle hok => ?_, fun hle e rest he => ?_, fun hle e rest he => ?_,
    fun hle e rest he => ?_, fun hle e rest he => ?_⟩
  · rw [hexec hle, handleOp_sendCommand_some_ok hr rfl hok, frameReceived_raset_windowBytes]
    rfl
  · exact (hexec hle).trans (handleOp_sendCommand_commandPin_fail hr he)
  · exact ⟨_, (hexec hle).trans (handleOp_sendCommand_opcode_fail hr he), rfl, rfl⟩
  · exact ⟨_, (hexec hle).trans (handleOp_sendCommand_dataPin_fail hr rfl he), rfl, rfl⟩
  · exact ⟨_, (hexec hle).trans (handleOp_sendCommand_bytes_fail hr rfl he), rfl, rfl⟩

end Sys2Proof.Machine

/-! The one error each addressing leg raises itself: a frame is cut short at its calls alone, so that error means the operands
are out of order; and the window operations whose row leg raises. -/

namespace Sys2Proof.Machine

/-! ## Runs that are cut short at their calls alone -/

/-- The reasons a pin or bus call gives for cutting an operation short (R184, R185, R218). -/
def Stop.AtCall : Stop → Prop
  | .err (.pinError _) | .err (.busError _) | .hang => True
  | .err .invalidColumnAddress | .err .invalidRowAddress => False

/-- If the run is cut short, it is at a pin or bus call. -/
def Run.CutOnlyAtCalls (r : Run) : Prop := ∀ why t, r = .stopped why t → why.AtCall

theorem cutOnlyAtCalls_done (s : State) : (Run.done s).CutOnlyAtCalls := by
  intro why t h
  cases h

theorem cutOnlyAtCalls_stopped {why : Stop} {s : State} (h : why.AtCall) : (Run.stopped why s).CutOnlyAtCalls := by
  intro why' t heq
  cases heq
  exact h

theorem Run.CutOnlyAtCalls.andThen {r : Run} {f : State → Run} (hr : r.CutOnlyAtCalls) (hf : ∀ t, (f t).CutOnlyAtCalls) :
    (r.andThen f).CutOnlyAtCalls := by
  cases r with
  | done t => exact hf t
  | stopped why t => exact hr

theorem Run.CutOnlyAtCalls.onStop {r : Run} (hr : r.CutOnlyAtCalls) (f : Ghost → Ghost) : (r.onStop f).CutOnlyAtCalls := by
  cases r with
  | done t => exact hr
  | stopped why t => exact cutOnlyAtCalls_stopped (hr why t rfl)

theorem pinSet_cutOnlyAtCalls (p : Pin) (l : Level) (s : State) : (pinSet p l s).CutOnlyAtCalls := by
  rcases pinSet_cases p l s with ⟨-, h⟩ | ⟨e, -, h⟩ | ⟨-, h⟩ <;> rw [h]
  · exact cutOnlyAtCalls_done _
  · exact cutOnlyAtCalls_stopped trivial
  · exact cutOnlyAtCalls_stopped trivial

theorem busWrite_cutOnlyAtCalls (bytes : List Byte) (s : State) : (busWrite bytes s).CutOnlyAtCalls := by
  rcases busWrite_cases bytes s with ⟨-, h⟩ | ⟨e, -, h⟩ | ⟨-, h⟩ <;> rw [h]
  · exact cutOnlyAtCalls_done _
  · exact cutOnlyAtCalls_stopped trivial
  · exact cutOnlyAtCalls_stopped trivial

theorem commandPhase_cutOnlyAtCalls (cmd : Cmd) (s : State) : (commandPhase cmd s).CutOnlyAtCalls :=
  (pinSet_cutOnlyAtCalls _ _ _).andThen fun _ =>
    ((busWrite_cutOnlyAtCalls _ _).onStop _).andThen fun _ => cutOnlyAtCalls_done _

theorem dataPhase_cutOnlyAtCalls (bytes : List Byte) (s : State) : (dataPhase bytes s).CutOnlyAtCalls :=
  (pinSet_cutOnlyAtCalls _ _ _).andThen (busWrite_cutOnlyAtCalls bytes)

/-- The framer raises no error of its own (R104). -/
theorem sendCommand_cutOnlyAtCalls (cmd : Cmd) (params : Option (List Byte)) (s : State) :
    (sendCommand cmd params s).CutOnlyAtCalls := by
  rw [sendCommand_eq]
  refine (commandPhase_cutOnlyAtCalls cmd s).andThen fun u => Run.CutOnlyAtCalls.andThen ?_ fun v => cutOnlyAtCalls_done _
  split
  · exact (dataPhase_cutOnlyAtCalls _ u).onStop _
  · exact cutOnlyAtCalls_done u

/-! ## The error of an addressing leg -/

section
variable {start last : Word} {s t : State}

theorem setColumnAddress_of_lt (h : last < start) : setColumnAddress start last s = .stopped (.err .invalidColumnAddress) s := by
  simp [setColumnAddress, startAfterEnd_of_lt h, raise]

theorem setColumnAddress_of_le (h : start ≤ last) :
    setColumnAddress start last s = sendCommand .caset (some (windowBytes start last)) s := by
  simp [setColumnAddress, startAfterEnd_of_le h]

theorem setRowAddress_of_lt (h : last < start) : setRowAddress start last s = .stopped (.err .invalidRowAddress) s := by
  simp [setRowAddress, startAfterEnd_of_lt h, raise]

theorem setRowAddress_of_le (h : start ≤ last) :
    setRowAddress start last s = sendCommand .raset (some (windowBytes start last)) s := by
  simp [setRowAddress, startAfterEnd_of_le h]

/-- A leg that raises `e` out of order and is otherwise cut short at its calls alone ends in `e` exactly when it is out of order,
and then at once. -/
theorem stopped_iff_of_raises {leg : Run} {e : Err} (he : ¬ (Stop.err e).AtCall)
    (hlt : last < start → leg = .stopped (.err e) s) (hle : start ≤ last → leg.CutOnlyAtCalls) :
    leg = .stopped (.err e) t ↔ start.toNat > last.toNat ∧ t = s := by
  constructor
  · intro hstop
    by_cases h : last < start
    · rw [hlt h] at hstop
      cases hstop
      exact ⟨h, rfl⟩
    · exact absurd (hle (BitVec.not_lt.1 h) _ _ hstop) he
  · rintro ⟨h, rfl⟩
    exact hlt h

theorem setColumnAddress_invalid_iff :
    setColumnAddress start last s = .stopped (.err .invalidColumnAddress) t ↔ start.toNat > last.toNat ∧ t = s :=
  stopped_iff_of_raises id setColumnAddress_of_lt fun h => setColumnAddress_of_le h ▸ sendCommand_cutOnlyAtCalls _ _ _

theorem setRowAddress_invalid_iff :
    setRowAddress start last s = .stopped (.err .invalidRowAddress) t ↔ start.toNat > last.toNat ∧ t = s :=
  stopped_iff_of_raises id setRowAddress_of_lt fun h => setRowAddress_of_le h ▸ sendCommand_cutOnlyAtCalls _ _ _

end

/-- Settles O18: only the test on the operands raises that error, and it stands before the first call. -/
theorem invalidColumnExactlyWhenStartIsAfterEnd : Obligations.InvalidColumnExactlyWhenStartIsAfterEnd := by
  intro s start last
  refine ⟨?_, fun t h => ?_, fun hr h => exec_setColumnAddress_of_lt hr h⟩
  · simp [setColumnAddress_invalid_iff]
  · obtain ⟨-, rfl⟩ := setColumnAddress_invalid_iff.1 h
    exact ⟨rfl, rfl, rfl, rfl⟩

/-! ## A window operation whose row leg raises -/

section
variable {colStart rowStart colEnd rowEnd : Word} {colors : List Word} {s : State}

/-- The state after a column frame whose four calls succeed (R110, R62). -/
def State.columnSet (s : State) (start last : Word) : State :=
  { s with env := s.env.drop 4, trace := s.trace ++ frameEvents s.cfg .caset (windowBytes start last),
           pins := { s.pins with dc := .known (dcDataLevel s.cfg) },
           ghost := { s.ghost with xs := .known start, xe := .known last, ramwrOpen := .known false } }

theorem setColumnAddress_ok (h : colStart ≤ colEnd) (hok : s.AnswersOk 4) :
    setColumnAddress colStart colEnd s = .done (s.columnSet colStart colEnd) := by
  rw [setColumnAddress_of_le h, sendCommand_some_ok rfl hok, frameReceived_caset_windowBytes]
  rfl

/-- The row leg raises after the column frame was sent (R183, R192). -/
theorem setAddressWindow_of_row_lt (hcol : colStart ≤ colEnd) (hrow : rowEnd < rowStart) (hok : s.AnswersOk 4) :
    setAddressWindow colStart rowStart colEnd rowEnd s =
      .stopped (.err .invalidRowAddress) (s.columnSet colStart colEnd) := by
  simp [setAddressWindow, setColumnAddress_ok hcol hok, setRowAddress_of_lt hrow]

/-- A stream whose window has an invalid row ends there, its addressing state kept (R189). -/
theorem writePixelStream_of_row_lt (hcol : colStart ≤ colEnd) (hrow : rowEnd < rowStart) (hok : s.AnswersOk 4) :
    writePixelStream colStart rowStart colEnd rowEnd colors s =
      .stopped (.err .invalidRowAddress) (s.columnSet colStart colEnd) := by
  simp [writePixelStream, setAddressWindow_of_row_lt hcol hrow hok, Run.addressingLost, mayHaveSent]

/-- What the host sees of an operation that ends in `e` right after its column frame. -/
theorem handleOp_of_columnSet_stopped {body : State → Run} {e : Err} (hr : s.Ready)
    (h : body s.accept = .stopped (.err e) (s.accept.columnSet colStart colEnd)) :
    handleOp body s = .next
      { s.failed 4 (frameEvents s.cfg .caset [hi8 colStart, lo8 colStart, hi8 colEnd, lo8 colEnd]) e with
        pins := { s.pins with dc := .known (dcDataLevel s.cfg) },
        ghost := { s.ghost with xs := .known colStart, xe := .known colEnd, ramwrOpen := .known false } } := by
  rw [handleOp_of_stopped hr h]
  simp [State.returns, State.failed, State.columnSet, windowBytes, be16, hr.1]

end

/-- Settles O19: only the test on the operands raises that error, and it stands before the first call of the row leg; in a window
operation the column leg has run by then. -/
theorem invalidRowExactlyWhenStartIsAfterEnd : Obligations.InvalidRowExactlyWhenStartIsAfterEnd := by
  intro s start last
  refine ⟨?_, fun t h => (setRowAddress_invalid_iff.1 h).2, ?_⟩
  · simp [setRowAddress_invalid_iff]
  · intro hr hok hrow colStart colEnd hcol colors i hi
    simp only [List.mem_cons, List.not_mem_nil, or_false] at hi
    rcases hi with rfl | rfl
    · exact handleOp_of_columnSet_stopped hr (setAddressWindow_of_row_lt hcol hrow hok)
    · exact handleOp_of_columnSet_stopped hr (writePixelStream_of_row_lt hcol hrow hok)

end Sys2Proof.Machine

/-! Every instruction as a list of calls. An operation's body is a script: its pin calls, bus calls and delays in order, each with what the
controller makes of it, and the error of the operation's own operands, if they call for one. `body_eq_script` ties the scripts to the
model's meanings; what holds of every instruction is then shown once, by induction over the calls. -/

namespace Sys2Proof.Machine

/-! ## Calls and scripts -/

/-- One call of an operation: the event it leaves when it succeeds, what is left of the controller if it does not (`cut`), and what the
controller makes of it if it does (`after`). -/
structure Call where
  event : Event
  cut : Ghost → Ghost
  after : Ghost → Ghost

/-- The capability primitive that leaves the event. -/
def Event.attempt : Event → State → Run
  | .pin p l _ => pinSet p l
  | .bus bs _ => busWrite bs
  | .delay n => delayMs n

/-- The call made, with its effect on the controller. -/
def Call.run (c : Call) (s : State) : Run :=
  ((c.event.attempt s).onStop c.cut).andThen fun t => .done (t.onGhost c.after)

/-- Calls in order, cut short by the first that does not succeed, then the error of the operation's own operands. -/
def perform (err : Option Err) : List Call → State → Run
  | [], s =>
    match err with
    | none => .done s
    | some e => raise e s
  | c :: cs, s => (c.run s).andThen (perform err cs)

/-- An operation's calls and the error its own operands call for. -/
structure Script where
  calls : List Call
  err : Option Err

/-- The script carried out. -/
def Script.run (sc : Script) (s : State) : Run := perform sc.err sc.calls s

/-! ## The script of each instruction -/

/-- A frame (R100): the effect on the controller is that of the frame's last bus call. -/
def frameCalls (cfg : Config) (cmd : Cmd) (params : Option (List Byte)) : List Call :=
  if hasDataPhase cfg params then
    [⟨.pin .dc cfg.dcCmdLevel .ok, id, id⟩, ⟨.bus [opcode cfg cmd] .ok, Ghost.opcodeInDoubt cmd, Ghost.opcodeReceived cmd⟩,
     ⟨.pin .dc (dcDataLevel cfg) .ok, Ghost.frameCut cmd, id⟩,
     ⟨.bus (params.getD []) .ok, Ghost.frameCut cmd, Ghost.frameReceived cmd (params.getD [])⟩]
  else
    [⟨.pin .dc cfg.dcCmdLevel .ok, id, id⟩,
     ⟨.bus [opcode cfg cmd] .ok, Ghost.opcodeInDoubt cmd, fun g => (g.opcodeReceived cmd).frameReceived cmd (params.getD [])⟩]

/-- The data phase of one pixel (R101). -/
def pixelCalls (cfg : Config) (color : Word) : List Call :=
  [⟨.pin .dc (dcDataLevel cfg) .ok, id, id⟩, ⟨.bus (be16 color) .ok, Ghost.pixelInDoubt, Ghost.pixelReceived (be16 color)⟩]

/-- A delay (R11). -/
def delayCall (n : Nat) : Call := ⟨.delay n, id, id⟩

/-- The reset pulse and the delay after it (R133). -/
def resetCalls (cfg : Config) : List Call :=
  let lost : Ghost → Ghost := fun _ => Ghost.forget .unspecified
  [⟨.pin .rst .high .ok, lost, id⟩, ⟨.delay cfg.tRstHigh1, lost, id⟩, ⟨.pin .rst .low .ok, lost, id⟩,
   ⟨.delay cfg.tRstLow, lost, id⟩, ⟨.pin .rst .high .ok, lost, fun _ => Ghost.forget .poweredReset⟩, delayCall cfg.tRstHigh2]

/-- The four parameter bytes of a window frame, as a frame's calls. -/
def axisCalls (cfg : Config) (cmd : Cmd) (start last : Word) : List Call := frameCalls cfg cmd (some (windowBytes start last))

/-- An address window, and the calls that follow it when both axes are in order (R112, R192). -/
def windowScript (cfg : Config) (colStart rowStart colEnd rowEnd : Word) (rest : List Call) : Script :=
  if colEnd < colStart then ⟨[], some .invalidColumnAddress⟩
  else if rowEnd < rowStart then ⟨axisCalls cfg .caset colStart colEnd, some .invalidRowAddress⟩
  else ⟨axisCalls cfg .caset colStart colEnd ++ axisCalls cfg .raset rowStart rowEnd ++ rest, none⟩

/-- A call inside a pixel write: if it does not succeed, the addressing state is lost (R124, R189). -/
def Call.losing (c : Call) : Call := { c with cut := fun g => (c.cut g).addressingInDoubt }

/-- The calls of a pixel write: once its first call has succeeded the addressing state is lost by a failure (log 15). -/
def losingCalls : List Call → List Call
  | [] => []
  | c :: cs => c :: cs.map Call.losing

/-- A pixel write as a script (R124, R189). -/
def Script.losing (sc : Script) : Script := { sc with calls := losingCalls sc.calls }

/-- The bring-up sequence (R147). -/
def bringUpCalls (cfg : Config) : List Call :=
  resetCalls cfg ++ frameCalls cfg .swreset none ++ [delayCall cfg.tSwreset] ++ frameCalls cfg .slpout none ++
  [delayCall cfg.tSlpout] ++ frameCalls cfg .colmod (some [cfg.initColmod]) ++ [delayCall cfg.tColmod] ++
  frameCalls cfg .madctl (some [cfg.initMadctl]) ++
  (axisCalls cfg .caset 0 cfg.initColEnd ++ axisCalls cfg .raset 0 cfg.initRowEnd) ++
  frameCalls cfg .invon none ++ frameCalls cfg .noron none ++ frameCalls cfg .dispon none

/-- The chip-select call of a lifecycle operation, if it makes one (R130, R132). -/
def csCalls (made : Bool) (l : Level) : List Call := if made then [⟨.pin .cs l .ok, id, id⟩] else []

/-- Calls that end in no error of the operands. -/
def Script.ofCalls (calls : List Call) : Script := ⟨calls, none⟩

/-- The script of each instruction; `hasCs` says whether the block owns a chip-select pin. -/
def script (cfg : Config) (hasCs : Bool) : Instr → Script
  | .setColumnAddress start last =>
    if last < start then ⟨[], some .invalidColumnAddress⟩ else .ofCalls (axisCalls cfg .caset start last)
  | .setRowAddress start last =>
    if last < start then ⟨[], some .invalidRowAddress⟩ else .ofCalls (axisCalls cfg .raset start last)
  | .setAddressWindow colStart rowStart colEnd rowEnd => windowScript cfg colStart rowStart colEnd rowEnd []
  | .writeSinglePixel x y color => (windowScript cfg x y x y (frameCalls cfg .ramwr none ++ pixelCalls cfg color)).losing
  | .writePixelStream colStart rowStart colEnd rowEnd colors =>
    (windowScript cfg colStart rowStart colEnd rowEnd
      (frameCalls cfg .ramwr (some []) ++ colors.flatMap (pixelCalls cfg))).losing
  | .hardReset => .ofCalls (resetCalls cfg)
  | .softReset => .ofCalls (frameCalls cfg .swreset none ++ [delayCall cfg.tSwreset])
  | .sleepOut => .ofCalls (frameCalls cfg .slpout none ++ [delayCall cfg.tSlpout])
  | .sleepIn => .ofCalls (frameCalls cfg .slpin none ++ [delayCall cfg.tSlpin])
  | .colorMode format => .ofCalls (frameCalls cfg .colmod (some [format]) ++ [delayCall cfg.tColmod])
  | .memoryAccessControl o => .ofCalls (frameCalls cfg .madctl (some [encodeMadctl cfg.madctlBit o]))
  | .displayOn => .ofCalls (frameCalls cfg .dispon none)
  | .displayOff => .ofCalls (frameCalls cfg .dispoff none)
  | .inversionOn => .ofCalls (frameCalls cfg .invon none)
  | .inversionOff => .ofCalls (frameCalls cfg .invoff none)
  | .partialDisplayMode => .ofCalls (frameCalls cfg .ptlon none)
  | .normalMode => .ofCalls (frameCalls cfg .noron none)
  | .idleOn => .ofCalls (frameCalls cfg .idmon none)
  | .idleOff => .ofCalls (frameCalls cfg .idmoff none)
  | .initializePanel => .ofCalls (bringUpCalls cfg)
  | .attach _ pins => .ofCalls (csCalls (pins.cs.isSome && cfg.csLowOnAttach) .low)
  | .attachConfig _ pins => .ofCalls (csCalls (pins.cs.isSome && cfg.csLowOnAttach) .low)
  | .release => .ofCalls (csCalls hasCs .high)
  | .swreset => .ofCalls (frameCalls cfg .swreset none)
  | .slpin => .ofCalls (frameCalls cfg .slpin none)
  | .slpout => .ofCalls (frameCalls cfg .slpout none)
  | .ptlon => .ofCalls (frameCalls cfg .ptlon none)
  | .noron => .ofCalls (frameCalls cfg .noron none)
  | .invoff => .ofCalls (frameCalls cfg .invoff none)
  | .invon => .ofCalls (frameCalls cfg .invon none)
  | .dispoff => .ofCalls (frameCalls cfg .dispoff none)
  | .dispon => .ofCalls (frameCalls cfg .dispon none)
  | .caset start last => .ofCalls (axisCalls cfg .caset start last)
  | .raset start last => .ofCalls (axisCalls cfg .raset start last)
  | .ramwr colors => (Script.ofCalls (frameCalls cfg .ramwr none ++ colors.flatMap (pixelCalls cfg))).losing
  | .madctl o => .ofCalls (frameCalls cfg .madctl (some [encodeMadctl cfg.madctlBit o]))
  | .idmoff => .ofCalls (frameCalls cfg .idmoff none)
  | .idmon => .ofCalls (frameCalls cfg .idmon none)
  | .colmod format => .ofCalls (frameCalls cfg .colmod (some [format]))

/-- The fields an instruction writes before its first call: the lifecycle operations alone write any (R130, R132). -/
def enter (i : Instr) (s : State) : State :=
  match i with
  | .attach bus pins => s.own ⟨bus, pins⟩
  | .attachConfig bus config => s.own ⟨bus, config⟩
  | .release => s.disown
  | _ => s

/-- The run an accepted instruction is. -/
def body : Instr → State → Run
  | .setColumnAddress start last => setColumnAddress start last
  | .setRowAddress start last => setRowAddress start last
  | .setAddressWindow colStart rowStart colEnd rowEnd => setAddressWindow colStart rowStart colEnd rowEnd
  | .writeSinglePixel x y color => writeSinglePixel x y color
  | .writePixelStream colStart rowStart colEnd rowEnd colors => writePixelStream colStart rowStart colEnd rowEnd colors
  | .hardReset => hardReset
  | .softReset => softReset
  | .sleepOut => sleepOut
  | .sleepIn => sleepIn
  | .colorMode format => colorMode format
  | .memoryAccessControl o | .madctl o => memoryAccessControl o
  | .displayOn | .dispon => modeCommand .dispon
  | .displayOff | .dispoff => modeCommand .dispoff
  | .inversionOn | .invon => modeCommand .invon
  | .inversionOff | .invoff => modeCommand .invoff
  | .partialDisplayMode | .ptlon => modeCommand .ptlon
  | .normalMode | .noron => modeCommand .noron
  | .idleOn | .idmon => modeCommand .idmon
  | .idleOff | .idmoff => modeCommand .idmoff
  | .initializePanel => initializePanel
  | .attach bus pins => attach ⟨bus, pins⟩
  | .attachConfig bus config => attach ⟨bus, config⟩
  | .release => release
  | .swreset => sendCommand .swreset none
  | .slpin => sendCommand .slpin none
  | .slpout => sendCommand .slpout none
  | .caset start last => sendCommand .caset (some (windowBytes start last))
  | .raset start last => sendCommand .raset (some (windowBytes start last))
  | .ramwr colors => pixelStreamFrame colors
  | .colmod format => sendCommand .colmod (some [format])

/-! ## Scripts in sequence -/

/-- No call touches the parameters (log 1). -/
theorem attempt_cfg (e : Event) (s : State) : (e.attempt s).state.cfg = s.cfg := by
  cases e with
  | pin p l r => rcases pinSet_cases p l s with ⟨-, h⟩ | ⟨e, -, h⟩ | ⟨-, h⟩ <;> simp [Event.attempt, h, Run.state]
  | bus bs r => rcases busWrite_cases bs s with ⟨-, h⟩ | ⟨e, -, h⟩ | ⟨-, h⟩ <;> simp [Event.attempt, h, Run.state]
  | delay n => rfl

theorem Call.run_done_cfg {c : Call} {s t : State} (h : c.run s = .done t) : t.cfg = s.cfg := by
  have hc := attempt_cfg c.event s
  unfold Call.run at h
  cases ha : c.event.attempt s with
  | done u => rw [ha] at h hc; cases h; exact hc
  | stopped w u => rw [ha] at h; cases h

/-- A run followed by the calls `b` in any state with its parameters: the sequence is one list of calls. -/
theorem perform_andThen {a b : List Call} {err : Option Err} {f : State → Run} {s : State}
    (hf : ∀ t, t.cfg = s.cfg → f t = perform err b t) : (perform none a s).andThen f = perform err (a ++ b) s := by
  induction a generalizing s with
  | nil => exact hf s rfl
  | cons c cs ih =>
    rw [List.cons_append, perform, perform, Run.andThen_assoc]
    cases h : c.run s with
    | done t => exact ih fun u hu => hf u (hu.trans (Call.run_done_cfg h))
    | stopped w t => rfl

theorem perform_append (err : Option Err) (a b : List Call) (s : State) :
    perform err (a ++ b) s = (perform none a s).andThen (perform err b) := (perform_andThen fun _ _ => rfl).symm

@[simp] theorem perform_nil (s : State) : perform none [] s = .done s := rfl

@[simp] theorem perform_delayCall (n : Nat) (s : State) : perform none [delayCall n] s = delayMs n s := rfl

/-- A part that is cut short loses the same of the controller at each of its calls. -/
theorem perform_onStop (f : Ghost → Ghost) (a : List Call) (s : State) :
    (perform none a s).onStop f = perform none (a.map fun c => { c with cut := fun g => f (c.cut g) }) s := by
  induction a generalizing s with
  | nil => rfl
  | cons c cs ih =>
    simp only [List.map_cons, perform, Call.run]
    cases c.event.attempt s with
    | done t => exact ih _
    | stopped w t => rfl

/-- A script that ends in an error of the operands ends the operation. -/
theorem perform_err_andThen (e : Err) (a : List Call) (f : State → Run) (s : State) :
    (perform (some e) a s).andThen f = perform (some e) a s := by
  induction a generalizing s with
  | nil => rfl
  | cons c cs ih =>
    rw [perform, Run.andThen_assoc]
    cases c.run s with
    | done t => exact ih t
    | stopped w t => rfl

/-- A last effect on the controller belongs to the last call. -/
theorem perform_finish {a : List Call} {c : Call} {f : Ghost → Ghost} {finishing : State → Run} {s : State}
    (hf : ∀ t, t.cfg = s.cfg → finishing t = .done (t.onGhost f)) :
    (perform none (a ++ [c]) s).andThen finishing = perform none (a ++ [{ c with after := fun g => f (c.after g) }]) s := by
  induction a generalizing s with
  | nil =>
    simp only [List.nil_append, perform, Call.run]
    have hcfg := attempt_cfg c.event s
    cases h : c.event.attempt s with
    | done t => exact hf _ (by rw [h] at hcfg; exact hcfg)
    | stopped w t => rfl
  | cons d ds ih =>
    simp only [List.cons_append, perform, Run.andThen_assoc]
    cases h : d.run s with
    | done t => exact ih fun u hu => hf u (hu.trans (Call.run_done_cfg h))
    | stopped w t => rfl

/-! ## The model's parts as calls -/

@[simp] theorem Run.onStop_id (r : Run) : r.onStop id = r := by cases r <;> rfl

@[simp] theorem State.onGhost_id (s : State) : s.onGhost id = s := rfl

@[simp] theorem Run.andThen_done (r : Run) : r.andThen Run.done = r := by cases r <;> rfl

/-- A call that touches no field of the controller. -/
theorem Call.run_plain (e : Event) (s : State) : Call.run ⟨e, id, id⟩ s = e.attempt s := by
  simp [Call.run]

/-- A call, then the calls `b` in any state with its parameters. -/
theorem attempt_andThen {e : Event} {b : List Call} {f : State → Run} {s : State}
    (hf : ∀ t, t.cfg = s.cfg → f t = perform none b t) : (e.attempt s).andThen f = perform none (⟨e, id, id⟩ :: b) s := by
  rw [← Call.run_plain, perform]
  cases h : Call.run ⟨e, id, id⟩ s with
  | done t => exact hf t (Call.run_done_cfg h)
  | stopped w t => rfl

theorem commandPhase_eq_calls (cmd : Cmd) (s : State) :
    commandPhase cmd s = perform none
      [⟨.pin .dc s.cfg.dcCmdLevel .ok, id, id⟩, ⟨.bus [opcode s.cfg cmd] .ok, Ghost.opcodeInDoubt cmd, Ghost.opcodeReceived cmd⟩] s := by
  refine attempt_andThen (e := .pin .dc s.cfg.dcCmdLevel .ok) fun t ht => ?_
  rw [ht]
  simp [perform, Call.run, Event.attempt]

/-- A frame's data phase with what cuts it and what completes it (R100, R151). -/
theorem dataPhase_in_frame (cmd : Cmd) (bytes : List Byte) (s : State) :
    ((dataPhase bytes s).onStop (Ghost.frameCut cmd)).andThen (fun t => .done (t.onGhost (Ghost.frameReceived cmd bytes))) =
      perform none [⟨.pin .dc (dcDataLevel s.cfg) .ok, Ghost.frameCut cmd, id⟩,
        ⟨.bus bytes .ok, Ghost.frameCut cmd, Ghost.frameReceived cmd bytes⟩] s := by
  simp only [dataPhase, perform, Call.run, Event.attempt]
  cases pinSet .dc (dcDataLevel s.cfg) s with
  | done t => cases h : busWrite bytes t <;> simp [h]
  | stopped w t => rfl

theorem sendCommand_eq_calls (cmd : Cmd) (params : Option (List Byte)) (s : State) :
    sendCommand cmd params s = perform none (frameCalls s.cfg cmd params) s := by
  rw [sendCommand_eq, commandPhase_eq_calls, frameCalls]
  by_cases hd : hasDataPhase s.cfg params = true
  · rw [if_pos hd]
    refine perform_andThen fun t ht => ?_
    rw [ht, if_pos hd, dataPhase_in_frame, ht]
  · rw [if_neg hd]
    exact perform_finish (a := [_]) (f := Ghost.frameReceived cmd (params.getD [])) fun t ht => by simp [ht, hd]

theorem sendData_eq_calls (color : Word) (s : State) : sendData (be16 color) s = perform none (pixelCalls s.cfg color) s := by
  simp only [sendData, pixelCalls, perform, Call.run, Event.attempt]
  cases pinSet .dc (dcDataLevel s.cfg) s with
  | done t => simp
  | stopped w t => rfl

theorem sendPixels_eq_calls (colors : List Word) (s : State) :
    sendPixels colors s = perform none (colors.flatMap (pixelCalls s.cfg)) s := by
  induction colors generalizing s with
  | nil => rfl
  | cons c cs ih =>
    rw [sendPixels, sendData_eq_calls, List.flatMap_cons]
    exact perform_andThen fun t ht => by rw [ih, ht]

theorem resetPulse_eq_calls (s : State) :
    resetPulse s = perform none
      [⟨.pin .rst .high .ok, id, id⟩, ⟨.delay s.cfg.tRstHigh1, id, id⟩, ⟨.pin .rst .low .ok, id, id⟩, ⟨.delay s.cfg.tRstLow, id, id⟩,
       ⟨.pin .rst .high .ok, id, id⟩] s := by
  refine attempt_andThen (e := .pin .rst .high .ok) fun s1 h1 => ?_
  rw [← h1]
  refine attempt_andThen (e := .delay s1.cfg.tRstHigh1) fun s2 h2 => ?_
  rw [← h2]
  refine attempt_andThen (e := .pin .rst .low .ok) fun s3 h3 => ?_
  rw [← h3]
  refine attempt_andThen (e := .delay s3.cfg.tRstLow) fun s4 _ => ?_
  simp [perform, Call.run_plain, Event.attempt]

/-- The pulse loses the controller wherever it is cut, and ends in the delay after it (R133). -/
theorem hardReset_eq_calls (s : State) : hardReset s = perform none (resetCalls s.cfg) s := by
  have hsplit : hardReset s = (((resetPulse s).onStop fun _ => Ghost.forget .unspecified).andThen fun t =>
      .done (t.onGhost fun _ => Ghost.forget .poweredReset)).andThen fun u => delayMs u.cfg.tRstHigh2 u := by
    rw [Run.andThen_assoc]
    rfl
  rw [hsplit, resetPulse_eq_calls, perform_onStop]
  refine (congrArg (fun r : Run => r.andThen _) (perform_finish (a := [_, _, _, _]) fun t _ => rfl)).trans ?_
  exact perform_andThen (b := [delayCall s.cfg.tRstHigh2]) fun t ht => by rw [ht, perform_delayCall]

/-- A frame and the delay after it (R134 to R137). -/
theorem sendCommand_delay_eq_calls (cmd : Cmd) (params : Option (List Byte)) (time : Config → Nat) (s : State) :
    (sendCommand cmd params s).andThen (fun t => delayMs (time t.cfg) t) =
      perform none (frameCalls s.cfg cmd params ++ [delayCall (time s.cfg)]) s := by
  rw [sendCommand_eq_calls]
  exact perform_andThen fun t ht => by rw [ht, perform_delayCall]

theorem startAfterEnd_iff {start last : Word} : startAfterEnd start last = true ↔ last < start := by
  simp [startAfterEnd]

/-- A window operation followed by the calls `rest` in any state with its parameters (R112, R120, R121). -/
theorem setAddressWindow_andThen {colStart rowStart colEnd rowEnd : Word} {rest : List Call} {f : State → Run} {s : State}
    (hf : ∀ t, t.cfg = s.cfg → f t = perform none rest t) :
    (setAddressWindow colStart rowStart colEnd rowEnd s).andThen f =
      (windowScript s.cfg colStart rowStart colEnd rowEnd rest).run s := by
  unfold windowScript setAddressWindow
  by_cases hcol : colEnd < colStart
  · rw [if_pos hcol, setColumnAddress_of_lt hcol]
    rfl
  rw [if_neg hcol, setColumnAddress_of_le (BitVec.not_lt.1 hcol), sendCommand_eq_calls]
  by_cases hrow : rowEnd < rowStart
  · have hraise (t : State) (_ : t.cfg = s.cfg) : setRowAddress rowStart rowEnd t = perform (some .invalidRowAddress) [] t :=
      setRowAddress_of_lt hrow
    rw [if_pos hrow, perform_andThen hraise, List.append_nil, perform_err_andThen]
    rfl
  · rw [if_neg hrow, Run.andThen_assoc]
    simp only [Script.run, List.append_assoc]
    refine perform_andThen fun t ht => ?_
    rw [setRowAddress_of_le (BitVec.not_lt.1 hrow), sendCommand_eq_calls, ht]
    exact perform_andThen fun u hu => hf u (hu.trans ht)

/-! ## Pixel writes -/

/-- The errors an operation's own operands call for (R182, R183). -/
def OperandError (err : Option Err) : Prop := ∀ e, err = some e → e = .invalidColumnAddress ∨ e = .invalidRowAddress

theorem attempt_cutOnlyAtCalls (e : Event) (s : State) : (e.attempt s).CutOnlyAtCalls := by
  cases e with
  | pin p l r => exact pinSet_cutOnlyAtCalls p l s
  | bus bs r => exact busWrite_cutOnlyAtCalls bs s
  | delay n => exact cutOnlyAtCalls_done _

/-- Cut short at a call, a pixel write may have sent a byte exactly when its first call succeeded (log 15). -/
theorem mayHaveSent_of_atCall {why : Stop} (h : why.AtCall) (start : State) : mayHaveSent start why = decide (start.answer = .ok) := by
  cases why with
  | hang => rfl
  | err e =>
    cases e with
    | pinError e => rfl
    | busError e => rfl
    | invalidColumnAddress => exact h.elim
    | invalidRowAddress => exact h.elim

theorem operandError_none : OperandError none := by rintro e ⟨⟩

/-- Once its first call has succeeded, a pixel write loses the addressing state wherever a later call fails (R124, R189). -/
theorem perform_addressingLost_of_started {err : Option Err} (herr : OperandError err) {start : State} (hstart : start.answer = .ok)
    (cs : List Call) (s : State) : (perform err cs s).addressingLost start = perform err (cs.map Call.losing) s := by
  induction cs generalizing s with
  | nil =>
    cases err with
    | none => rfl
    | some e => rcases herr e rfl with rfl | rfl <;> rfl
  | cons c cs ih =>
    have hcut := attempt_cutOnlyAtCalls c.event s
    simp only [List.map_cons, perform, Call.run, Call.losing]
    cases h : c.event.attempt s with
    | done t => exact ih _
    | stopped w t => simp [Run.addressingLost, mayHaveSent_of_atCall (hcut w t h), hstart, State.onGhost]

/-- A pin or bus call that is not answered `ok` does not succeed. -/
theorem attempt_done_iff {e : Event} (he : ∀ n, e ≠ .delay n) (s : State) : (∃ t, e.attempt s = .done t) ↔ s.answer = .ok := by
  cases e with
  | pin p l r => rcases pinSet_cases p l s with ⟨ha, h⟩ | ⟨e, ha, h⟩ | ⟨ha, h⟩ <;> simp [Event.attempt, h, ha]
  | bus bs r => rcases busWrite_cases bs s with ⟨ha, h⟩ | ⟨e, ha, h⟩ | ⟨ha, h⟩ <;> simp [Event.attempt, h, ha]
  | delay n => exact absurd rfl (he n)

/-- A pixel write whose first call is a pin or bus call (R124, R189; log 15). -/
theorem perform_addressingLost {err : Option Err} (herr : OperandError err) {cs : List Call}
    (hfirst : ∀ c ∈ cs.head?, ∀ n, c.event ≠ .delay n) (s : State) :
    (perform err cs s).addressingLost s = perform err (losingCalls cs) s := by
  cases cs with
  | nil =>
    cases err with
    | none => rfl
    | some e => rcases herr e rfl with rfl | rfl <;> rfl
  | cons c cs =>
    have hiff := attempt_done_iff (hfirst c rfl) s
    have hcut := attempt_cutOnlyAtCalls c.event s
    simp only [losingCalls, perform, Call.run]
    cases h : c.event.attempt s with
    | done t => exact perform_addressingLost_of_started herr (hiff.1 ⟨t, h⟩) cs _
    | stopped w t =>
      have hne : s.answer ≠ .ok := fun ha => by simpa [h] using hiff.2 ha
      simp [Run.addressingLost, mayHaveSent_of_atCall (hcut w t h), hne]

/-! ## Every instruction is its script -/

theorem frameCalls_head (cfg : Config) (cmd : Cmd) (params : Option (List Byte)) :
    (frameCalls cfg cmd params).head? = some ⟨.pin .dc cfg.dcCmdLevel .ok, id, id⟩ := by
  unfold frameCalls
  split <;> rfl

/-- With both axes in order, a window operation makes every call (R112). -/
theorem windowScript_of_le {cfg : Config} {colStart rowStart colEnd rowEnd : Word} {rest : List Call} (hcol : colStart ≤ colEnd)
    (hrow : rowStart ≤ rowEnd) : windowScript cfg colStart rowStart colEnd rowEnd rest =
      .ofCalls (axisCalls cfg .caset colStart colEnd ++ axisCalls cfg .raset rowStart rowEnd ++ rest) := by
  rw [windowScript, if_neg (BitVec.not_lt.2 hcol), if_neg (BitVec.not_lt.2 hrow)]
  rfl

theorem windowScript_err (cfg : Config) (colStart rowStart colEnd rowEnd : Word) (rest : List Call) :
    OperandError (windowScript cfg colStart rowStart colEnd rowEnd rest).err := by
  unfold windowScript
  split
  · rintro e ⟨⟩
    exact .inl rfl
  · split
    · rintro e ⟨⟩
      exact .inr rfl
    · rintro e ⟨⟩

/-- A window's first call, if it makes one, drives the data/command pin. -/
theorem windowScript_head (cfg : Config) (colStart rowStart colEnd rowEnd : Word) (rest : List Call) :
    ∀ c ∈ (windowScript cfg colStart rowStart colEnd rowEnd rest).calls.head?, ∀ n, c.event ≠ .delay n := by
  intro c hc n
  unfold windowScript at hc
  split at hc
  · cases hc
  · split at hc <;> simp [axisCalls, frameCalls_head] at hc <;> simp [← hc]

/-- A pixel write is a window, an opening of the stream and its pixels, losing the addressing state when cut short. -/
theorem windowWrite_eq_script {colStart rowStart colEnd rowEnd : Word} {opening pixels : State → Run} {calls : Config → List Call} {s : State}
    (h : ∀ t, t.cfg = s.cfg → (opening t).andThen pixels = perform none (calls s.cfg) t) :
    (((setAddressWindow colStart rowStart colEnd rowEnd s).andThen opening).andThen pixels).addressingLost s =
      (windowScript s.cfg colStart rowStart colEnd rowEnd (calls s.cfg)).losing.run s := by
  rw [Run.andThen_assoc, setAddressWindow_andThen h]
  exact perform_addressingLost (windowScript_err _ _ _ _ _ _) (windowScript_head _ _ _ _ _ _) s

/-- The opening frame of a stream and its pixels (R74, R120, R121). -/
theorem openStream_eq_calls (params : Option (List Byte)) (colors : List Word) (cfg : Config) (t : State) (ht : t.cfg = cfg) :
    (sendCommand .ramwr params t).andThen (sendPixels colors) =
      perform none (frameCalls cfg .ramwr params ++ colors.flatMap (pixelCalls cfg)) t := by
  rw [sendCommand_eq_calls, ht]
  exact perform_andThen fun u hu => by rw [sendPixels_eq_calls, hu, ht]

theorem attach_eq_calls (res : Resources) (s : State) :
    attach res s = perform none (csCalls (res.pins.cs.isSome && s.cfg.csLowOnAttach) .low) (s.own res) := by
  cases h : res.pins.cs.isSome && s.cfg.csLowOnAttach <;>
    simp [attach, csCalls, State.hasCs, h, perform, Call.run_plain, Event.attempt]

theorem release_eq_calls (s : State) : release s = perform none (csCalls s.hasCs .high) s.disown := by
  cases h : s.hasCs <;> simp [release, csCalls, h, perform, Call.run_plain, Event.attempt]

theorem zero_le_word (v : Word) : (0 : Word) ≤ v := by bv_omega

/-- The bring-up is the calls of its nine operations (R147). -/
theorem initializePanel_eq_calls (s : State) : initializePanel s = perform none (bringUpCalls s.cfg) s := by
  simp only [bringUpCalls, List.append_assoc]
  rw [initializePanel, hardReset_eq_calls]
  refine perform_andThen fun s1 h1 => ?_
  rw [← h1, ← List.append_assoc (frameCalls _ _ _), softReset, sendCommand_delay_eq_calls .swreset none Config.tSwreset]
  refine perform_andThen fun s2 h2 => ?_
  rw [← h2, ← List.append_assoc (frameCalls _ _ _), sleepOut, sendCommand_delay_eq_calls .slpout none Config.tSlpout]
  refine perform_andThen fun s3 h3 => ?_
  rw [← h3, ← List.append_assoc (frameCalls _ _ _), colorMode, sendCommand_delay_eq_calls .colmod _ Config.tColmod]
  refine perform_andThen fun s4 h4 => ?_
  rw [← h4, sendOrientation, sendCommand_eq_calls]
  refine perform_andThen fun s5 h5 => ?_
  rw [← h5, setAddressWindow_andThen (rest := frameCalls s5.cfg .invon none ++ (frameCalls s5.cfg .noron none ++ frameCalls s5.cfg .dispon none)),
    windowScript_of_le (zero_le_word _) (zero_le_word _)]
  · simp only [List.append_assoc]
    rfl
  intro s6 h6
  rw [← h6, modeCommand, sendCommand_eq_calls]
  refine perform_andThen fun s7 h7 => ?_
  rw [← h7, modeCommand, sendCommand_eq_calls]
  exact perform_andThen fun s8 h8 => by rw [← h8, modeCommand, sendCommand_eq_calls]

/-- The body of an instruction is its script, once the fields it writes before its first call are written. -/
theorem body_eq_script (i : Instr) (s : State) : body i s = (script s.cfg s.hasCs i).run (enter i s) := by
  cases i with
  | setColumnAddress start last =>
    simp only [body, script, setColumnAddress, startAfterEnd_iff, Script.run, enter]
    split
    · rfl
    · exact sendCommand_eq_calls _ _ _
  | setRowAddress start last =>
    simp only [body, script, setRowAddress, startAfterEnd_iff, Script.run, enter]
    split
    · rfl
    · exact sendCommand_eq_calls _ _ _
  | setAddressWindow cs rs ce re =>
    have := setAddressWindow_andThen (colStart := cs) (rowStart := rs) (colEnd := ce) (rowEnd := re) (s := s) (f := .done) (rest := []) fun t _ => rfl
    rw [Run.andThen_done] at this
    exact this
  | writeSinglePixel x y color =>
    refine windowWrite_eq_script (calls := fun cfg => frameCalls cfg .ramwr none ++ pixelCalls cfg color) fun t ht => ?_
    rw [sendCommand_eq_calls, ht]
    exact perform_andThen fun u hu => by rw [sendData_eq_calls, hu, ht]
  | writePixelStream colStart rowStart colEnd rowEnd colors =>
    exact windowWrite_eq_script (calls := fun cfg => frameCalls cfg .ramwr (some []) ++ colors.flatMap (pixelCalls cfg))
      (openStream_eq_calls (some []) colors s.cfg)
  | ramwr colors =>
    rw [body, pixelStreamFrame, openStream_eq_calls none colors s.cfg s rfl]
    exact perform_addressingLost operandError_none (by simp [frameCalls_head]) s
  | hardReset => exact hardReset_eq_calls s
  | softReset => exact sendCommand_delay_eq_calls .swreset none Config.tSwreset s
  | sleepOut => exact sendCommand_delay_eq_calls .slpout none Config.tSlpout s
  | sleepIn => exact sendCommand_delay_eq_calls .slpin none Config.tSlpin s
  | colorMode format => exact sendCommand_delay_eq_calls .colmod (some [format]) Config.tColmod s
  | initializePanel => exact initializePanel_eq_calls s
  | attach bus pins => exact attach_eq_calls ⟨bus, pins⟩ s
  | attachConfig bus config => exact attach_eq_calls ⟨bus, config⟩ s
  | release => exact release_eq_calls s
  | _ => exact sendCommand_eq_calls _ _ _

end Sys2Proof.Machine

/-! What an accepted instruction answers, in terms of its script; what its calls leave unchanged; and what is observed of them. -/

namespace Sys2Proof.Machine

/-! ## Accepting an instruction and returning its result -/

/-- The state after a run has returned its result, if it returns one (R186, R218). -/
def Run.returned (back backOnErr : Option Resources) : Run → State
  | .done s => s.returns ⟨none, back⟩
  | .stopped (.err e) s => s.returns ⟨some e, backOnErr⟩
  | .stopped .hang s => s

/-- The run of an accepted instruction. -/
def runOf (i : Instr) (s : State) : Run := (script s.cfg s.hasCs i).run (enter i s.accept)

/-- The state an accepted instruction answers. -/
def answerOf (i : Instr) (s : State) : State := (runOf i s).returned (handedBack s i) (handedBackOnError s i)

/-- The block takes the instruction: it is free, in the life state the instruction needs, and the operands are legal (R194, R195). -/
structure Accepts (s : State) (i : Instr) : Prop where
  free : s.busy = false
  life : s.life = lifeNeeded i
  legal : i.wellFormed s.cfg = true

theorem finish_eq (back backOnErr : Option Resources) (r : Run) : finish back backOnErr r = .next (r.returned back backOnErr) := by
  cases r with
  | done s => rfl
  | stopped w s => cases w <;> rfl

/-- Why an instruction with an illegal operand is refused (R195). -/
def illegalOperand : Instr → Refusal
  | .colorMode format | .colmod format => .pixelFormat format
  | _ => .busy

/-- Every instruction is an operation with its body, refused by name when its operand is illegal (R194, R195). -/
theorem exec_eq_operation (i : Instr) (s : State) :
    exec i s = if i.wellFormed s.cfg then operation (lifeNeeded i) (handedBack s i) (handedBackOnError s i) (body i) s
      else .refused (illegalOperand i) := by
  cases i <;> rfl

theorem exec_of_accepts {i : Instr} {s : State} (h : Accepts s i) : exec i s = .next (answerOf i s) := by
  rw [exec_eq_operation, if_pos h.legal, operation_accepted h.free h.life, finish_eq, body_eq_script]
  rfl

/-- An instruction that answers a next state was accepted, and the answer is its script's. -/
theorem accepts_of_exec_next {i : Instr} {s t : State} (h : exec i s = .next t) : Accepts s i ∧ t = answerOf i s := by
  have ha : Accepts s i := by
    rw [exec_eq_operation] at h
    split at h
    next hlegal =>
      obtain ⟨hfree, hlife, -⟩ := operation_next h
      exact ⟨hfree, hlife, hlegal⟩
    next => cases h
  rw [exec_of_accepts ha] at h
  cases h
  exact ⟨ha, rfl⟩

/-- Why an instruction that is not accepted is refused (R194, R195; log 31). -/
def refusalOf (i : Instr) (s : State) : Refusal :=
  if i.wellFormed s.cfg then
    if s.busy then .busy
    else
      match lifeNeeded i with
      | .attached => .notAttached
      | .detached => .notDetached
  else illegalOperand i

/-- An instruction that is not accepted is refused; none ends in a fault. -/
theorem exec_of_not_accepts {i : Instr} {s : State} (h : ¬ Accepts s i) : exec i s = .refused (refusalOf i s) := by
  rw [exec_eq_operation, refusalOf]
  split
  next hlegal =>
    unfold operation
    split
    · rfl
    next hfree =>
      rw [if_neg fun hlife => h ⟨by simpa using hfree, hlife, hlegal⟩]
      cases lifeNeeded i <;> rfl
  next => rfl

/-! ### What returning a result leaves unchanged -/

/-- Returning a result changes the busy mark, the results and the chain alone (R36, R86). -/
theorem Run.returned_eq (back backOnErr : Option Resources) (r : Run) :
    r.returned back backOnErr = { r.state with
      busy := (r.returned back backOnErr).busy, results := (r.returned back backOnErr).results,
      chain := (r.returned back backOnErr).chain } := by
  cases r with
  | done s => rfl
  | stopped w s => cases w <;> rfl

section
variable (i : Instr) (s : State)

@[simp] theorem answerOf_life : (answerOf i s).life = (runOf i s).state.life := by rw [answerOf, Run.returned_eq]
@[simp] theorem answerOf_res : (answerOf i s).res = (runOf i s).state.res := by rw [answerOf, Run.returned_eq]
@[simp] theorem answerOf_pins : (answerOf i s).pins = (runOf i s).state.pins := by rw [answerOf, Run.returned_eq]
@[simp] theorem answerOf_trace : (answerOf i s).trace = (runOf i s).state.trace := by rw [answerOf, Run.returned_eq]
@[simp] theorem answerOf_ghost : (answerOf i s).ghost = (runOf i s).state.ghost := by rw [answerOf, Run.returned_eq]
@[simp] theorem answerOf_cfg : (answerOf i s).cfg = (runOf i s).state.cfg := by rw [answerOf, Run.returned_eq]
@[simp] theorem answerOf_hostUsesBus : (answerOf i s).hostUsesBus = (runOf i s).state.hostUsesBus := by rw [answerOf, Run.returned_eq]

end

/-! ## Everything one call can do -/

/-- The state after the event's call succeeded. -/
def State.did (s : State) : Event → State
  | .pin p l _ => (s.answered.log (.pin p l .ok)).setPin p (.known l)
  | .bus bs _ => s.answered.log (.bus bs .ok)
  | .delay n => s.log (.delay n)

/-- The event with the collaborator's error as its result. -/
def Event.failing (e : ErrorValue) : Event → Event
  | .pin p l _ => .pin p l (.fail e)
  | .bus bs _ => .bus bs (.fail e)
  | .delay n => .delay n

/-- The error a failing call raises (R184, R185). -/
def Event.error (e : ErrorValue) : Event → Err
  | .pin .. => .pinError e
  | .bus .. | .delay _ => .busError e

/-- The pin shadows after a call that did not succeed. -/
def Pins.lost (ps : Pins) : Event → Pins
  | .pin p _ _ => ps.set p .unknown
  | .bus .. | .delay _ => ps

/-- The state after the event's call failed. -/
def State.missed (s : State) (e : ErrorValue) (ev : Event) : State :=
  { s.answered with trace := s.trace ++ [ev.failing e], pins := s.pins.lost ev }

/-- The state in which the event's call never returns. -/
def State.stuck (s : State) (ev : Event) : State := { s.answered with pins := s.pins.lost ev }

/-- Whether the event is a pin or bus call, which a collaborator answers (R9, R10). -/
def Event.asks : Event → Bool
  | .pin .. | .bus .. => true
  | .delay _ => false

theorem Call.run_ok {c : Call} {s : State} (h : c.event.asks = true → s.answer = .ok) :
    c.run s = .done ((s.did c.event).onGhost c.after) := by
  obtain ⟨ev, cut, after⟩ := c
  cases ev with
  | pin p l r => simp [Call.run, Event.attempt, pinSet_of_ok (h rfl), State.did]
  | bus bs r => simp [Call.run, Event.attempt, busWrite_of_ok (h rfl), State.did]
  | delay n => rfl

theorem Call.run_fail {c : Call} {s : State} {e : ErrorValue} (hc : c.event.asks = true) (h : s.answer = .fail e) :
    c.run s = .stopped (.err (c.event.error e)) ((s.missed e c.event).onGhost c.cut) := by
  obtain ⟨ev, cut, after⟩ := c
  cases ev with
  | pin p l r => simp [Call.run, Event.attempt, pinSet_of_fail h, Event.error]; rfl
  | bus bs r => simp [Call.run, Event.attempt, busWrite_of_fail h, Event.error]; rfl
  | delay n => cases hc

theorem Call.run_never {c : Call} {s : State} (hc : c.event.asks = true) (h : s.answer = .never) :
    c.run s = .stopped .hang ((s.stuck c.event).onGhost c.cut) := by
  obtain ⟨ev, cut, after⟩ := c
  cases ev with
  | pin p l r => simp [Call.run, Event.attempt, pinSet_of_never h]; rfl
  | bus bs r => simp [Call.run, Event.attempt, busWrite_of_never h]; rfl
  | delay n => cases hc

/-- Everything a call can do (R9 to R11, R218). -/
theorem Call.run_cases (c : Call) (s : State) :
    ((c.event.asks = true → s.answer = .ok) ∧ c.run s = .done ((s.did c.event).onGhost c.after)) ∨
    (c.event.asks = true ∧ ∃ e, s.answer = .fail e ∧
      c.run s = .stopped (.err (c.event.error e)) ((s.missed e c.event).onGhost c.cut)) ∨
    (c.event.asks = true ∧ s.answer = .never ∧ c.run s = .stopped .hang ((s.stuck c.event).onGhost c.cut)) := by
  cases hc : c.event.asks with
  | false => exact .inl ⟨nofun, Call.run_ok (by simp [hc])⟩
  | true =>
    cases h : s.answer with
    | ok => exact .inl ⟨fun _ => rfl, Call.run_ok fun _ => h⟩
    | fail e => exact .inr (.inl ⟨rfl, e, rfl, Call.run_fail hc h⟩)
    | never => exact .inr (.inr ⟨rfl, rfl, Call.run_never hc h⟩)

/-! ## What the calls of a script leave unchanged -/

/-- A relation that every outcome of every call keeps is kept by the script, whatever way it ends. -/
theorem perform_within {R : State → State → Prop} (refl : ∀ s, R s s) (trans : ∀ {a b c}, R a b → R b c → R a c)
    {cs : List Call} (h : ∀ c ∈ cs, ∀ s, R s (c.run s).state) (err : Option Err) (s : State) : R s (perform err cs s).state := by
  induction cs generalizing s with
  | nil => cases err <;> exact refl s
  | cons c cs ih =>
    have hc := h c (List.mem_cons_self ..) s
    rw [perform]
    cases hr : c.run s with
    | done t => rw [hr] at hc; exact trans hc (ih (fun d hd => h d (List.mem_cons_of_mem _ hd)) t)
    | stopped w t => rw [hr] at hc; exact hc

/-- The state `s` with only what a pin call, a bus call or a delay may change taken from `t`. -/
def State.calledTouched (s t : State) : State := { s with trace := t.trace, env := t.env, pins := t.pins, ghost := t.ghost }

/-- The calls of an operation change the trace, the answers left, the pin shadows and the controller alone. -/
theorem perform_touches (err : Option Err) (cs : List Call) (s : State) :
    (perform err cs s).state = s.calledTouched (perform err cs s).state := by
  refine perform_within (R := fun a b => b = a.calledTouched b) (fun _ => rfl) (fun {a b c} hab hbc => ?_) (fun c _ u => ?_) err s
  · rw [hab] at hbc
    exact hbc
  · rcases c.run_cases u with ⟨-, h⟩ | ⟨-, e, -, h⟩ | ⟨-, -, h⟩ <;> rw [h] <;> cases c.event <;> rfl

/-- Whether the event is a call on the pin. -/
def Event.drives (p : Pin) : Event → Bool
  | .pin q _ _ => decide (q = p)
  | .bus .. | .delay _ => false

theorem Event.pins_get_of_not_drives {ev : Event} {p : Pin} (h : ev.drives p = false) (s : State) :
    (s.did ev).pins.get p = s.pins.get p ∧ (s.pins.lost ev).get p = s.pins.get p := by
  cases ev with
  | pin q l r =>
    have hne : p ≠ q := fun e => by simp [Event.drives, e] at h
    exact ⟨Pins.get_set_of_ne _ _ hne, Pins.get_set_of_ne _ _ hne⟩
  | bus bs r => exact ⟨rfl, rfl⟩
  | delay n => exact ⟨rfl, rfl⟩

/-- A pin no call drives keeps its shadow (R23). -/
theorem perform_pin {p : Pin} {cs : List Call} (h : ∀ c ∈ cs, c.event.drives p = false) (err : Option Err) (s : State) :
    (perform err cs s).state.pins.get p = s.pins.get p := by
  refine perform_within (R := fun a b => b.pins.get p = a.pins.get p) (fun _ => rfl) (fun hab hbc => hbc.trans hab) (fun c hc u => ?_) err s
  obtain ⟨hdid, hlost⟩ := Event.pins_get_of_not_drives (h c hc) u
  rcases c.run_cases u with ⟨-, hr⟩ | ⟨-, e, -, hr⟩ | ⟨-, -, hr⟩ <;> rw [hr]
  · exact hdid
  · exact hlost
  · exact hlost

/-! ## What is observed of a script -/

/-- The event with the result `ok`. -/
def Event.succeeding : Event → Event
  | .pin p l _ => .pin p l .ok
  | .bus bs _ => .bus bs .ok
  | .delay n => .delay n

/-- The answers left after the event's call. -/
def Event.answersLeft (ev : Event) (as : List Answer) : List Answer := if ev.asks then as.tail else as

@[simp] theorem State.did_trace (s : State) (ev : Event) : (s.did ev).trace = s.trace ++ [ev.succeeding] := by cases ev <;> rfl
@[simp] theorem State.did_env (s : State) (ev : Event) : (s.did ev).env = ev.answersLeft s.env := by cases ev <;> rfl
@[simp] theorem State.did_cfg (s : State) (ev : Event) : (s.did ev).cfg = s.cfg := by cases ev <;> rfl
@[simp] theorem State.did_ghost (s : State) (ev : Event) : (s.did ev).ghost = s.ghost := by cases ev <;> rfl

theorem follow_ok {err : Option Err} {ev : Event} {es : List Event} {as : List Answer} (h : ev.asks = true → as.headD .ok = .ok) :
    follow err (ev :: es) as = (ev.succeeding :: (follow err es (ev.answersLeft as)).1, (follow err es (ev.answersLeft as)).2) := by
  cases ev with
  | delay n => rfl
  | pin p l r => simp only [follow, h rfl]; rfl
  | bus bs r => simp only [follow, h rfl]; rfl

theorem follow_fail {err : Option Err} {ev : Event} {es : List Event} {as : List Answer} {e : ErrorValue} (hev : ev.asks = true)
    (h : as.headD .ok = .fail e) : follow err (ev :: es) as = ([ev.failing e], some (.err (ev.error e))) := by
  cases ev with
  | delay n => cases hev
  | pin p l r => simp only [follow, h]; rfl
  | bus bs r => simp only [follow, h]; rfl

theorem follow_never {err : Option Err} {ev : Event} {es : List Event} {as : List Answer} (hev : ev.asks = true)
    (h : as.headD .ok = .never) : follow err (ev :: es) as = ([], some .hang) := by
  cases ev with
  | delay n => cases hev
  | pin p l r => simp only [follow, h]
  | bus bs r => simp only [follow, h]

/-- Everything that can be seen of a list of calls (R186, R188, R218): all of them succeed, or those before the first that fails and
that one with its error, or those before the first that never returns. -/
theorem follow_cases (err : Option Err) (es : List Event) (as : List Answer) :
    follow err es as = (es.map Event.succeeding, err.map Stop.err) ∨
    (∃ earlier ev later e, es = earlier ++ ev :: later ∧ ev.asks = true ∧
      follow err es as = (earlier.map Event.succeeding ++ [ev.failing e], some (.err (ev.error e)))) ∨
    (∃ earlier ev later, es = earlier ++ ev :: later ∧ follow err es as = (earlier.map Event.succeeding, some .hang)) := by
  induction es generalizing as with
  | nil => exact .inl rfl
  | cons ev es ih =>
    by_cases hok : ev.asks = true → as.headD .ok = .ok
    · rw [follow_ok hok]
      rcases ih (ev.answersLeft as) with h | ⟨earlier, ev', later, e, rfl, hasks, h⟩ | ⟨earlier, ev', later, rfl, h⟩ <;> rw [h]
      · exact .inl rfl
      · exact .inr (.inl ⟨ev :: earlier, ev', later, e, rfl, hasks, rfl⟩)
      · exact .inr (.inr ⟨ev :: earlier, ev', later, rfl, rfl⟩)
    · obtain ⟨hasks, hne⟩ := Classical.not_imp.1 hok
      cases ha : as.headD .ok with
      | ok => exact absurd ha hne
      | fail e => exact .inr (.inl ⟨[], ev, es, e, rfl, hasks, follow_fail hasks ha⟩)
      | never => exact .inr (.inr ⟨[], ev, es, rfl, follow_never hasks ha⟩)

/-- The calls observed are the script's, cut short at the first that does not succeed (R186, R188, R218). -/
theorem perform_follows (err : Option Err) (cs : List Call) (s : State) :
    (perform err cs s).state.trace = s.trace ++ (follow err (cs.map Call.event) s.env).1 ∧
    (perform err cs s).why = (follow err (cs.map Call.event) s.env).2 := by
  induction cs generalizing s with
  | nil => cases err <;> exact ⟨(List.append_nil _).symm, rfl⟩
  | cons c cs ih =>
    rw [perform, List.map_cons]
    rcases c.run_cases s with ⟨ha, h⟩ | ⟨hc, e, ha, h⟩ | ⟨hc, ha, h⟩ <;> rw [h]
    · obtain ⟨htrace, hwhy⟩ := ih ((s.did c.event).onGhost c.after)
      rw [follow_ok ha]
      exact ⟨by simpa using htrace, hwhy.trans (by simp)⟩
    · rw [follow_fail hc ha]
      exact ⟨rfl, rfl⟩
    · rw [follow_never hc ha]
      exact ⟨(List.append_nil _).symm, rfl⟩

/-! ## The scripts make the spec's calls -/

theorem frameCalls_empty_events (cfg : Config) : (frameCalls cfg .ramwr (some [])).map Call.event = openEvents cfg := by
  cases h : cfg.emptyParamsDataPhase <;> simp [frameCalls, hasDataPhase, h, openEvents, commandEvents, dataEvents]

theorem pixelCalls_events (cfg : Config) (colors : List Word) :
    (colors.flatMap (pixelCalls cfg)).map Call.event = pixelEvents cfg colors := by
  rw [List.map_flatMap]
  rfl

theorem losingCalls_events (cs : List Call) : (losingCalls cs).map Call.event = cs.map Call.event := by
  cases cs with
  | nil => rfl
  | cons c cs => simp [losingCalls, Call.losing]

theorem windowScript_plan (cfg : Config) (colStart rowStart colEnd rowEnd : Word) (rest : List Call) :
    let sc := windowScript cfg colStart rowStart colEnd rowEnd rest
    (⟨sc.calls.map Call.event, sc.err⟩ : Plan) = windowPlan cfg colStart rowStart colEnd rowEnd (rest.map Call.event) := by
  dsimp only
  unfold windowScript windowPlan
  split
  · rfl
  · split
    · rfl
    · rw [List.map_append, List.map_append]
      rfl

/-- The script as the plan it carries out. -/
def Script.plan (sc : Script) : Plan := ⟨sc.calls.map Call.event, sc.err⟩

theorem losing_plan (sc : Script) : sc.losing.plan = sc.plan := by
  simp [Script.plan, Script.losing, losingCalls_events]

theorem ite_plan {c : Prop} [Decidable c] (a b : Script) : (if c then a else b).plan = if c then a.plan else b.plan := by
  split <;> rfl

theorem csCalls_plan (made : Bool) (l : Level) :
    (Script.ofCalls (csCalls made l)).plan = ⟨if made then [.pin .cs l .ok] else [], none⟩ := by
  cases made <;> rfl

/-- Every instruction's script makes the calls the spec lists for it, and ends in the error its operands call for. -/
theorem script_plan (i : Instr) (s : State) : (script s.cfg s.hasCs i).plan = plan s i := by
  cases i with
  | setColumnAddress start last => simp only [script, plan, ite_plan]; rfl
  | setRowAddress start last => simp only [script, plan, ite_plan]; rfl
  | setAddressWindow colStart rowStart colEnd rowEnd => exact windowScript_plan ..
  | writeSinglePixel x y color =>
    rw [script, losing_plan, windowScript_of_le (BitVec.le_refl _) (BitVec.le_refl _)]
    rfl
  | writePixelStream colStart rowStart colEnd rowEnd colors =>
    rw [script, losing_plan]
    refine (windowScript_plan ..).trans ?_
    rw [List.map_append, pixelCalls_events, frameCalls_empty_events]
    rfl
  | ramwr colors =>
    rw [script, losing_plan, Script.ofCalls, Script.plan, List.map_append, pixelCalls_events]
    rfl
  | initializePanel => rfl
  | attach bus pins => exact csCalls_plan _ _
  | attachConfig bus config => exact csCalls_plan _ _
  | release => exact csCalls_plan _ _
  | _ => rfl

/-! ## What is observed of an accepted instruction -/

@[simp] theorem enter_cfg (i : Instr) (s : State) : (enter i s).cfg = s.cfg := by cases i <;> rfl
@[simp] theorem enter_env (i : Instr) (s : State) : (enter i s).env = s.env := by cases i <;> rfl
@[simp] theorem enter_trace (i : Instr) (s : State) : (enter i s).trace = s.trace := by cases i <;> rfl
@[simp] theorem enter_busy (i : Instr) (s : State) : (enter i s).busy = s.busy := by cases i <;> rfl
@[simp] theorem enter_results (i : Instr) (s : State) : (enter i s).results = s.results := by cases i <;> rfl
@[simp] theorem enter_chain (i : Instr) (s : State) : (enter i s).chain = s.chain := by cases i <;> rfl
@[simp] theorem enter_hostUsesBus (i : Instr) (s : State) : (enter i s).hostUsesBus = s.hostUsesBus := by cases i <;> rfl

/-- The events an accepted instruction appends, and how its run ends. -/
def observed (i : Instr) (s : State) : List Event × Option Stop := follow (plan s i).err (plan s i).events s.env

theorem runOf_observed (i : Instr) (s : State) :
    (runOf i s).state.trace = s.trace ++ (observed i s).1 ∧ (runOf i s).why = (observed i s).2 := by
  have h := perform_follows (script s.cfg s.hasCs i).err (script s.cfg s.hasCs i).calls (enter i s.accept)
  rw [enter_env, enter_trace] at h
  rw [observed, ← script_plan]
  exact h

/-- What the calls of an accepted instruction leave unchanged. -/
theorem runOf_touches (i : Instr) (s : State) : (runOf i s).state = (enter i s.accept).calledTouched (runOf i s).state :=
  perform_touches _ _ _

theorem answerOf_appends (i : Instr) (s : State) : (answerOf i s).trace = s.trace ++ (observed i s).1 := by
  rw [answerOf_trace, (runOf_observed i s).1]

/-- How an accepted instruction ends, and what it then returns (R86, R186, R218). -/
theorem answerOf_ends (i : Instr) (s : State) :
    match (observed i s).2 with
    | none => (answerOf i s).busy = false ∧ (answerOf i s).results = s.results ++ [⟨none, handedBack s i⟩] ∧ (answerOf i s).chain = s.chain
    | some (.err e) =>
      (answerOf i s).busy = false ∧ (answerOf i s).results = s.results ++ [⟨some e, handedBackOnError s i⟩] ∧ (answerOf i s).chain = []
    | some .hang => (answerOf i s).busy = true ∧ (answerOf i s).results = s.results ∧ (answerOf i s).chain = s.chain := by
  have htouch := runOf_touches i s
  rw [← (runOf_observed i s).2, answerOf]
  cases h : runOf i s with
  | done u =>
    simp only [h, Run.state] at htouch
    rw [htouch]
    simp [Run.why, Run.returned, State.calledTouched]
  | stopped w u =>
    simp only [h, Run.state] at htouch
    rw [htouch]
    cases w <;> simp [Run.why, Run.returned, State.calledTouched]

/-- Settles O43: the run of an accepted instruction is its script's, whose calls are the plan's. -/
theorem everyOperationFollowsItsCalls : Obligations.EveryOperationFollowsItsCalls := by
  intro i s hfree hlife hlegal
  exact ⟨answerOf i s, exec_of_accepts ⟨hfree, hlife, hlegal⟩, answerOf_appends i s, answerOf_ends i s⟩

end Sys2Proof.Machine

/-! Requests and their encoding: the orientation byte, the request word, and that decoding reads back what encoding wrote. -/

namespace Sys2Proof.Machine

/-! ## The orientation byte -/

/-- With six distinct bits, each field reads its own bit of the orientation byte (R76). -/
theorem orientationFields_encodeMadctl {bits : MadctlBits} (h : bits.toList.Nodup) (o : Orientation) :
    orientationFields bits (encodeMadctl bits o) = o := by
  simp only [MadctlBits.toList, List.nodup_cons, List.mem_cons, not_or, List.not_mem_nil, not_false_eq_true, and_true,
    Fin.ext_iff] at h
  obtain ⟨⟨h1, h2, h3, h4, h5⟩, ⟨h6, h7, h8, h9⟩, ⟨h10, h11, h12⟩, ⟨h13, h14⟩, h15, -⟩ := h
  cases o
  simp only [orientationFields, getLsbD_encodeMadctl, Orientation.mk.injEq]
  grind

theorem decodeMadctl_encodeMadctl {bits : MadctlBits} (h : bits.toList.Nodup) (o : Orientation) :
    decodeMadctl bits (encodeMadctl bits o) = some o := by
  simp [decodeMadctl, orientationFields_encodeMadctl h]

/-- The bytes that decode are the encodings (R76). -/
theorem exists_encodeMadctl_iff {bits : MadctlBits} (h : bits.toList.Nodup) (b : Byte) :
    (∃ o, encodeMadctl bits o = b) ↔ ∀ k : Fin 8, b.getLsbD k = true → k ∈ bits.toList := by
  rw [← decodeMadctl_isSome_iff]
  constructor
  · rintro ⟨o, rfl⟩
    simp [decodeMadctl_encodeMadctl h]
  · intro hsome
    refine ⟨orientationFields bits b, ?_⟩
    by_contra hne
    simp [decodeMadctl, hne] at hsome

/-- Distinct bits never meet, so the union of the contributions is their sum without carries. -/
theorem encodeMadctl_eq_xor {bits : MadctlBits} (h : bits.toList.Nodup) (o : Orientation) :
    encodeMadctl bits o =
      orientationBit o.pageOrder bits.page ^^^ (orientationBit o.columnOrder bits.column ^^^
      (orientationBit o.pageColumnSwap bits.swap ^^^ (orientationBit o.lineOrder bits.line ^^^
      (orientationBit o.colorOrder bits.color ^^^ orientationBit o.latchOrder bits.latch)))) := by
  simp only [MadctlBits.toList, List.nodup_cons, List.mem_cons, not_or, List.not_mem_nil, not_false_eq_true, and_true,
    Fin.ext_iff] at h
  obtain ⟨⟨h1, h2, h3, h4, h5⟩, ⟨h6, h7, h8, h9⟩, ⟨h10, h11, h12⟩, ⟨h13, h14⟩, h15, -⟩ := h
  refine BitVec.eq_of_getLsbD_eq fun k _ => ?_
  simp only [getLsbD_encodeMadctl, BitVec.getLsbD_xor, getLsbD_orientationBit]
  by_cases k1 : k = bits.page
  · subst k1; simp [*]
  by_cases k2 : k = bits.column
  · subst k2; simp [*]
  by_cases k3 : k = bits.swap
  · subst k3; simp [*]
  by_cases k4 : k = bits.line
  · subst k4; simp [*]
  by_cases k5 : k = bits.color
  · subst k5; simp [*]
  simp [*]

theorem orientationBit_xor_not (choice : Bool) (bit : Fin 8) :
    orientationBit choice bit ^^^ orientationBit (!choice) bit = BitVec.twoPow 8 bit := by
  cases choice <;> simp [orientationBit]

theorem xor_cancel_left (a b c : Byte) : (a ^^^ b) ^^^ (a ^^^ c) = b ^^^ c := by
  rw [BitVec.xor_assoc, ← BitVec.xor_assoc b, BitVec.xor_comm b a, BitVec.xor_assoc a, ← BitVec.xor_assoc, BitVec.xor_self, BitVec.zero_xor]

theorem xor_cancel_right (a b c : Byte) : (b ^^^ a) ^^^ (c ^^^ a) = b ^^^ c := by
  rw [BitVec.xor_comm b, BitVec.xor_comm c, xor_cancel_left]

theorem and_three_eq_zero_iff : ∀ b : Byte, b &&& 0x03#8 = 0#8 ↔ b.getLsbD 0 = false ∧ b.getLsbD 1 = false := by decide

/-- The adopted layout leaves bits 1 and 0 to no field (R29). -/
theorem default_orientationBits_iff (b : Byte) :
    (∀ k : Fin 8, b.getLsbD k = true → k ∈ Config.default.madctlBit.toList) ↔ b.getLsbD 0 = false ∧ b.getLsbD 1 = false := by
  constructor
  · intro h
    have h0 := h 0
    have h1 := h 1
    simpa [MadctlBits.toList, Config.default] using And.intro h0 h1
  · rintro ⟨h0, h1⟩ k hk
    fin_cases k <;> simp_all [MadctlBits.toList, Config.default]

theorem default_madctlBit_nodup : Config.default.madctlBit.toList.Nodup := by decide

theorem encodeMadctl_inj {bits : MadctlBits} (h : bits.toList.Nodup) {o o' : Orientation} (he : encodeMadctl bits o = encodeMadctl bits o') :
    o = o' := by
  rw [← orientationFields_encodeMadctl h o, he, orientationFields_encodeMadctl h]

/-- Settles O6: the byte is the sum without carries of its fields' bits, and reading the bits gives the fields back. -/
theorem orientationByteIsTheUnionOfItsFields : Obligations.OrientationByteIsTheUnionOfItsFields := by
  refine ⟨fun o => rfl, fun b => ?_, fun bits hbits o => ⟨fun o' => encodeMadctl_inj hbits, ?_, ?_, ?_, ?_, ?_, ?_⟩, by decide, by decide⟩
  · rw [exists_encodeMadctl_iff default_madctlBit_nodup, default_orientationBits_iff, and_three_eq_zero_iff]
  all_goals simp only [encodeMadctl_eq_xor hbits, xor_cancel_left, xor_cancel_right, orientationBit_xor_not]

/-! ## Decoding reads back what encoding wrote -/

theorem decode_frameOf {cfg : Config} (h : cfg.opc.toList.Nodup) (cmd : Cmd) (data : List Byte) :
    decode cfg (frameOf cfg cmd data) = decodeFrame cfg cmd data := by
  simp [decode, frameOf, cmdOfOpcode_opcode h]

theorem decodeOrientation_encodeMadctl {cfg : Config} (h : cfg.madctlBit.toList.Nodup) (o : Orientation) (k : Orientation → Instr) :
    decodeOrientation cfg (encodeMadctl cfg.madctlBit o) k = .ok (k o) := by
  simp [decodeOrientation, decodeMadctl_encodeMadctl h]

/-- The pins handed over are the pins presented, when the flag says whether one is the chip-select (R130). -/
theorem sidePins_sideOf (bus : Handle) (pins : PinBundle) : sidePins (sideOf bus pins) pins.cs.isSome = pins := by
  obtain ⟨dc, rst, cs⟩ := pins
  cases cs <;> rfl

theorem decode_reqWord {cfg : Config} (h : cfg.opsel.toList.Nodup) (op : Op) (a b c d : Word) :
    decode cfg (reqWord (selector cfg op) a b c d) = decodeOp cfg op ⟨selector cfg op, a, b, c, d, {}⟩ :=
  decode_req_selector h rfl

/-- The flag of `attach` is bit 0 of its operand (R82). -/
theorem attach_flag (hasCs : Bool) : (if hasCs then (1 : Word) else 0).getLsbD 0 = hasCs := by cases hasCs <;> rfl

/-- The data bytes of a window frame are read back as its coordinates (R73). -/
theorem decodeFrame_windowBytes (cfg : Config) (start last : Word) :
    decodeFrame cfg .caset (windowBytes start last) = .ok (.caset start last) ∧
    decodeFrame cfg .raset (windowBytes start last) = .ok (.raset start last) := by
  simp [decodeFrame, windowBytes, be16]

/-- Settles O1: distinct selectors and opcodes name their row, and each row's operands are read back from where they were written. -/
theorem decodeOfEncodeIsTheInstruction : Obligations.DecodeOfEncodeIsTheInstruction := by
  intro cfg i hcfg _
  obtain ⟨hopc, hbits, -, -, -, -, -, hsel, -⟩ := hcfg
  have hword := decode_reqWord hsel
  have hreq (r : Req) (op : Op) (h : r.sel = selector cfg op) := decode_req_selector hsel h
  have hframe := decode_frameOf hopc
  cases i with
  | setColumnAddress | setRowAddress | setAddressWindow | writeSinglePixel | hardReset | softReset | sleepOut | sleepIn | displayOn
  | displayOff | inversionOn | inversionOff | partialDisplayMode | normalMode | idleOn | idleOff | initializePanel | release =>
    exact hword _ _ _ _ _
  | writePixelStream colStart rowStart colEnd rowEnd colors => exact hreq _ .writePixelStream rfl
  | colorMode format => exact (hword _ _ _ _ _).trans (by simp [decodeOp, byteOperand])
  | memoryAccessControl o => exact (hword _ _ _ _ _).trans (by simp [decodeOp, byteOperand, decodeOrientation_encodeMadctl hbits])
  | attach bus pins =>
    refine (hreq _ .attach rfl).trans ?_
    rw [decodeOp, attach_flag, sidePins_sideOf]
    rfl
  | attachConfig bus pins =>
    refine (hreq _ .attachConfig rfl).trans ?_
    rw [decodeOp, show (sideOf bus pins).configHasCs = pins.cs.isSome from rfl, sidePins_sideOf]
    rfl
  | swreset | slpin | slpout | ptlon | noron | invoff | invon | dispoff | dispon | idmoff | idmon | colmod => exact hframe _ _
  | caset start last => exact (hframe _ _).trans (decodeFrame_windowBytes cfg start last).1
  | raset start last => exact (hframe _ _).trans (decodeFrame_windowBytes cfg start last).2
  | ramwr colors => exact (hframe _ _).trans (by simp [decodeFrame])
  | madctl o => exact (hframe _ _).trans (decodeOrientation_encodeMadctl hbits o .madctl)

/-! ## The request word -/

/-- Settles O2: the fields are the five runs of the word's bits, from the top down. -/
theorem requestWordAndFieldsAgree : Obligations.RequestWordAndFieldsAgree := by
  constructor
  · rintro ⟨sel, a, b, c, d, side⟩
    simp only [Req.ofWord, Req.toWord, Req.mk.injEq, and_true]
    have hlow (start len m n : Nat) (x : BitVec m) (y : BitVec n) (h : start + len ≤ n) :
        (x ++ y).extractLsb' start len = y.extractLsb' start len := BitVec.extractLsb'_append_eq_of_add_le h
    refine ⟨BitVec.extractLsb'_append_eq_left, ?_, ?_, ?_, ?_⟩
    · exact (hlow 48 16 8 64 _ _ (by decide)).trans BitVec.extractLsb'_append_eq_left
    · exact ((hlow 32 16 8 64 _ _ (by decide)).trans (hlow 32 16 16 48 _ _ (by decide))).trans BitVec.extractLsb'_append_eq_left
    · exact (((hlow 16 16 8 64 _ _ (by decide)).trans (hlow 16 16 16 48 _ _ (by decide))).trans
        (hlow 16 16 16 32 _ _ (by decide))).trans BitVec.extractLsb'_append_eq_left
    · exact (((hlow 0 16 8 64 _ _ (by decide)).trans (hlow 0 16 16 48 _ _ (by decide))).trans
        (hlow 0 16 16 32 _ _ (by decide))).trans BitVec.extractLsb'_append_eq_right
  · intro w side
    rw [Req.toWord, Req.ofWord, BitVec.extractLsb'_append_extractLsb'_eq_extractLsb' (by rfl),
      BitVec.extractLsb'_append_extractLsb'_eq_extractLsb' (by rfl),
      BitVec.extractLsb'_append_extractLsb'_eq_extractLsb' (by rfl),
      BitVec.extractLsb'_append_extractLsb'_eq_extractLsb' (by rfl)]
    exact BitVec.extractLsb'_eq_self

/-! ## Requests that name an instruction the spec's table has -/

/-- Settles O3, by evaluation. -/
theorem writtenWordsDecode : Obligations.WrittenWordsDecode := by
  unfold Obligations.WrittenWordsDecode
  decide

/-- Settles O8, by evaluation. -/
theorem textExamplesParse : Obligations.TextExamplesParse := by
  unfold Obligations.TextExamplesParse
  decide

/-- Settles O60: the adapter's operations are two instructions of the block, which encode and decode. -/
theorem adapterDrawsThroughPixelWritesOnly : Obligations.AdapterDrawsThroughPixelWritesOnly := by
  intro cfg hcfg
  have hpixel (x y color : Word) := decodeOfEncodeIsTheInstruction cfg (.writeSinglePixel x y color) hcfg rfl
  refine ⟨fun x y color => ?_, fun colStart rowStart colEnd rowEnd colors => ?_, fun pixels => ?_, rfl⟩
  · simp [Draw.chain, Draw.operations, hpixel]
  · simp [Draw.chain, Draw.operations,
      decodeOfEncodeIsTheInstruction cfg (.writePixelStream colStart rowStart colEnd rowEnd colors) hcfg rfl]
  · simp [Draw.chain, Draw.operations, hpixel]

/-! ## Result codes -/

/-- Settles O7: the four codes and the 0 of `Ok` are distinct in any record within the constraints. -/
theorem resultCodesAreTheErrorTable : Obligations.ResultCodesAreTheErrorTable := by
  refine ⟨fun back e => ⟨rfl, rfl, rfl, rfl, rfl⟩, fun cfg r hcfg => ?_⟩
  obtain ⟨-, -, -, -, -, -, -, -, hcodes⟩ := hcfg
  simp only [ErrorCodes.toList, List.nodup_cons, List.mem_cons, not_or, List.not_mem_nil, not_false_eq_true, and_true] at hcodes
  obtain ⟨⟨h1, h2, h3, h4⟩, ⟨h5, h6, h7⟩, ⟨h8, h9⟩, h10, -⟩ := hcodes
  obtain ⟨err, back⟩ := r
  rcases err with _ | _ | _ | e | e
  · simp [Result.code, h1, h2, h3, h4]
  · simp [Result.code, Ne.symm h1, h5, h6, h7]
  · simp [Result.code, Ne.symm h2, Ne.symm h5, h8, h9]
  · simp [Result.code, Ne.symm h3, Ne.symm h6, Ne.symm h8, h10]
  · simp [Result.code, Ne.symm h4, Ne.symm h7, Ne.symm h9, Ne.symm h10]

end Sys2Proof.Machine

/-! Steps and acceptance, and what every instruction leaves unchanged. -/

namespace Sys2Proof.Machine

/-! ## Steps -/

theorem step_of_decode_ok {s : State} {r : Request} {rest : List Request} {i : Instr} (hc : s.chain = r :: rest)
    (hd : decode s.cfg r = .ok i) : step s = exec i { s with chain := rest } := by
  simp [step, hc, hd, State.popRequest]

theorem step_of_empty_chain {s : State} (hc : s.chain = []) : step s = if s.busy then .fault .hung else .next s := by
  simp [step, hc]

/-- Settles O9, by what the chain holds. -/
theorem stepRunsTheNextRequest : Obligations.StepRunsTheNextRequest := by
  refine ⟨fun s r rest i => step_of_decode_ok, fun s r rest why => step_of_decode_error, fun s hc => ⟨fun hb => ?_, fun hb => ?_⟩⟩
  · simp [step_of_empty_chain hc, hb]
  · simp [step_of_empty_chain hc, hb]

/-- A step that answers a next state waits for the host, or is an accepted instruction of the next request. -/
theorem step_next {s t : State} (h : step s = .next t) :
    (s.chain = [] ∧ s.busy = false ∧ t = s) ∨
    ∃ r rest i, s.chain = r :: rest ∧ decode s.cfg r = .ok i ∧ Accepts { s with chain := rest } i ∧
      t = answerOf i { s with chain := rest } := by
  cases hc : s.chain with
  | nil =>
    rw [step_of_empty_chain hc] at h
    cases hb : s.busy with
    | true => simp [hb] at h
    | false => exact .inl ⟨rfl, rfl, by simpa [hb, eq_comm] using h⟩
  | cons r rest =>
    cases hd : decode s.cfg r with
    | error why => simp [step_of_decode_error hc hd] at h
    | ok i =>
      rw [step_of_decode_ok hc hd] at h
      exact .inr ⟨r, rest, i, rfl, hd, accepts_of_exec_next h⟩

/-- Settles O10: the results grow only by an instruction's own result, and that result says what is left of the chain. -/
theorem chainEndsAtTheFirstError : Obligations.ChainEndsAtTheFirstError := by
  intro s t r rest res hc hstep hres
  rcases step_next hstep with ⟨hnil, -⟩ | ⟨r', rest', i, hc', -, -, rfl⟩
  · simp [hnil] at hc
  · obtain ⟨rfl, rfl⟩ : r = r' ∧ rest = rest' := by simpa [hc] using hc'
    have hends := answerOf_ends i { s with chain := rest }
    split at hends <;> obtain ⟨-, hresults, hchain⟩ := hends <;> rw [hresults] at hres
    · obtain rfl : ⟨none, _⟩ = res := by simpa using hres
      exact ⟨nofun, fun _ => hchain⟩
    · obtain rfl : ⟨some _, _⟩ = res := by simpa using hres
      exact ⟨fun _ => hchain, nofun⟩
    · simp at hres

/-- Only the attach operations run from a detached block (R194). -/
theorem lifeNeeded_eq_detached {i : Instr} (h : lifeNeeded i = .detached) :
    ∃ bus pins, i = .attach bus pins ∨ i = .attachConfig bus pins := by
  cases i with
  | attach bus pins => exact ⟨bus, pins, .inl rfl⟩
  | attachConfig bus pins => exact ⟨bus, pins, .inr rfl⟩
  | _ => cases h

theorem lifeNeeded_eq_attached {i : Instr} (hattach : ∀ bus pins, i ≠ .attach bus pins)
    (hconfig : ∀ bus pins, i ≠ .attachConfig bus pins) : lifeNeeded i = .attached := by
  cases h : lifeNeeded i with
  | attached => rfl
  | detached =>
    obtain ⟨bus, pins, rfl | rfl⟩ := lifeNeeded_eq_detached h
    · exact absurd rfl (hattach bus pins)
    · exact absurd rfl (hconfig bus pins)

/-- Settles O11: no out-of-turn instruction is accepted, since acceptance asks for a free block in the instruction's life state. -/
theorem operationsOutOfTurnHaveNoStep : Obligations.OperationsOutOfTurnHaveNoStep := by
  intro i s
  refine ⟨fun hbusy => ?_, fun hlife hattach hconfig => ?_, fun hlife bus pins => ⟨?_, ?_⟩⟩
  · exact ⟨_, exec_of_not_accepts fun h => by simpa [hbusy] using h.free⟩
  · refine ⟨_, exec_of_not_accepts fun h => ?_⟩
    obtain ⟨bus, pins, rfl | rfl⟩ := lifeNeeded_eq_detached (h.life.symm.trans hlife)
    · exact hattach bus pins rfl
    · exact hconfig bus pins rfl
  · exact ⟨_, exec_of_not_accepts fun h => by simpa [hlife, lifeNeeded] using h.life⟩
  · exact ⟨_, exec_of_not_accepts fun h => by simpa [hlife, lifeNeeded] using h.life⟩

/-! ## What no call and no result changes -/

section
variable (i : Instr) (s : State)

theorem runOf_life : (runOf i s).state.life = (enter i s.accept).life := by rw [runOf_touches]; rfl
theorem runOf_res : (runOf i s).state.res = (enter i s.accept).res := by rw [runOf_touches]; rfl
theorem runOf_cfg : (runOf i s).state.cfg = s.cfg := by rw [runOf_touches]; simp [State.calledTouched]
theorem runOf_hostUsesBus : (runOf i s).state.hostUsesBus = s.hostUsesBus := by rw [runOf_touches]; simp [State.calledTouched]

end

/-- An instruction that is no lifecycle operation writes nothing before its first call. -/
theorem enter_of_not_lifecycle {i : Instr} (hattach : ∀ bus pins, i ≠ .attach bus pins)
    (hconfig : ∀ bus pins, i ≠ .attachConfig bus pins) (hrelease : i ≠ .release) (s : State) : enter i s = s := by
  cases i with
  | attach bus pins => exact absurd rfl (hattach bus pins)
  | attachConfig bus pins => exact absurd rfl (hconfig bus pins)
  | release => exact absurd rfl hrelease
  | _ => rfl

/-- Settles O12: acceptance gives the life state before, the fields written on entry the one after. -/
theorem lifecycleMovesOnlyByAttachAndRelease : Obligations.LifecycleMovesOnlyByAttachAndRelease := by
  refine ⟨rfl, fun i s t h => ?_⟩
  obtain ⟨ha, rfl⟩ := accepts_of_exec_next h
  simp only [answerOf_life, runOf_life, ha.life]
  refine ⟨?_, ?_, fun hattach hconfig hrelease => ?_⟩
  · rintro bus pins (rfl | rfl) <;> exact ⟨rfl, rfl⟩
  · rintro rfl
    exact ⟨rfl, rfl⟩
  · have hneeds := lifeNeeded_eq_attached hattach hconfig
    rw [enter_of_not_lifecycle hattach hconfig hrelease]
    exact ⟨hneeds, ha.life.trans hneeds⟩

/-- Settles O13: the fields by definition; what can run there needs a detached block. -/
theorem resetLeavesTheListedState : Obligations.ResetLeavesTheListedState := by
  refine ⟨rfl, rfl, rfl, rfl, rfl, rfl, rfl, rfl, rfl, rfl, rfl, rfl, rfl, rfl, rfl, rfl, rfl, fun _ _ => rfl, fun i t h => ?_⟩
  exact lifeNeeded_eq_detached (accepts_of_exec_next h).1.life.symm

/-- Settles O14, by the answer of the call. -/
theorem capabilityPrimitivesRecordTheirCall : Obligations.CapabilityPrimitivesRecordTheirCall := by
  intro p l bs n s
  refine ⟨fun h => ⟨_, pinSet_of_ok h, ?_⟩, fun e h => ⟨_, pinSet_of_fail h, ?_⟩, fun h => ⟨_, busWrite_of_ok h, rfl, rfl⟩,
    fun e h => ⟨_, busWrite_of_fail h, rfl, rfl⟩, _, rfl, rfl, rfl, rfl⟩
  · exact ⟨rfl, Pins.get_set_self _ _ _, fun q hq => Pins.get_set_of_ne _ _ hq⟩
  · exact ⟨rfl, Pins.get_set_self _ _ _, fun q hq => Pins.get_set_of_ne _ _ hq⟩

/-- Settles O49: a busy block accepts nothing, and a step needs an accepted instruction or a free block. -/
theorem hungBlockTakesNoMoreRequests : Obligations.HungBlockTakesNoMoreRequests := by
  refine ⟨fun i s t _ hbusy => ⟨fun j => (operationsOutOfTurnHaveNoStep j t).1 hbusy, fun u hu => ?_⟩, fun s rest hready henv => ?_⟩
  · rcases step_next hu with ⟨-, hfree, -⟩ | ⟨r, rest, j, -, -, ha, -⟩
    · simp [hbusy] at hfree
    · simpa [hbusy] using ha.free
  · have ha : Accepts s .displayOn := ⟨hready.1, hready.2, rfl⟩
    have hseen : observed .displayOn s = ([], some .hang) := by simp [observed, plan, commandEvents, follow, henv]
    have htrace := answerOf_appends .displayOn s
    have hends := answerOf_ends .displayOn s
    rw [hseen] at htrace hends
    obtain ⟨hbusy, hresults, -⟩ := hends
    exact ⟨_, exec_of_accepts ha, hbusy, by simpa using htrace, hresults⟩

/-- Settles O5: three kinds do not decode; a pixel format outside the set decodes and is not accepted. -/
theorem illFormedRequestsHaveNoStep : Obligations.IllFormedRequestsHaveNoStep := by
  intro s rest hsel
  refine ⟨fun r hc hr => ?_, fun r hc hr hformat => ?_, fun r hc hr hbits hbit => ?_, fun op data hc hop => ?_⟩
  · exact ⟨_, (reservedSelectorsHaveNoStep s r rest (.inl ⟨hsel, hr⟩)).2 hc⟩
  · have hd : decode s.cfg (.req r) = .ok (.colorMode (lo8 r.a)) := decode_req_default_selector hsel (op := .colorMode) hr
    rw [step_of_decode_ok hc hd]
    exact ⟨_, exec_of_not_accepts fun h => hformat (by simpa [Instr.wellFormed, legalFormat] using h.legal)⟩
  · have hnone : decodeMadctl s.cfg.madctlBit (lo8 r.a) = none := by
      rw [hbits, ← Option.not_isSome_iff_eq_none, decodeMadctl_isSome_iff, default_orientationBits_iff]
      rintro ⟨h0, h1⟩
      have hlow (k : Nat) (hk : k < 8) : (lo8 r.a).getLsbD k = r.a.getLsbD k := by simp [lo8, hk]
      rw [hlow _ (by decide)] at h0 h1
      rcases hbit with h | h
      · exact absurd (h0.symm.trans h) (by decide)
      · exact absurd (h1.symm.trans h) (by decide)
    refine ⟨_, step_of_decode_error hc (why := .orientationBits (lo8 r.a)) ?_⟩
    rw [decode_req_default_selector hsel (op := .memoryAccessControl) hr, decodeOp, decodeOrientation, hnone]
  · refine ⟨_, step_of_decode_error hc (why := .unknownOpcode op) ?_⟩
    have hnone : cmdOfOpcode s.cfg op = none := by simp [cmdOfOpcode, hop]
    simp [decode, hnone]

end Sys2Proof.Machine

/-! The calls of every instruction are frames between other events, so the rules on traces are rules on frames. -/

namespace Sys2Proof.Machine

/-! ## Frames between other events -/

/-- A run of events that is frames of the Command Table, each an opcode and data phases whose bytes fit its format (R70 to R74), and
between them events that meet `other`. -/
inductive Framed (cfg : Config) (other : Event → Prop) : List Event → Prop
  | nil : Framed cfg other []
  | other {e : Event} {es : List Event} : other e → Framed cfg other es → Framed cfg other (e :: es)
  | frame {es : List Event} (cmd : Cmd) (phases : List (List Byte)) : (Cmd.format cmd).fits phases.flatten.length = true →
      Framed cfg other es → Framed cfg other (commandEvents cfg cmd ++ (phases.flatMap (dataEvents cfg) ++ es))

namespace Framed
variable {cfg : Config} {other : Event → Prop} {es es' : List Event}

theorem append (h : Framed cfg other es) (h' : Framed cfg other es') : Framed cfg other (es ++ es') := by
  induction h with
  | nil => exact h'
  | other he _ ih => exact .other he ih
  | frame cmd phases hfits _ ih => simpa only [List.append_assoc] using Framed.frame cmd phases hfits ih

theorem single {e : Event} (h : other e) : Framed cfg other [e] := .other h .nil

theorem command {cmd : Cmd} (h : (Cmd.format cmd).fits 0 = true) : Framed cfg other (commandEvents cfg cmd) := by
  simpa using Framed.frame (cfg := cfg) (other := other) cmd [] h .nil

theorem parameters {cmd : Cmd} {bytes : List Byte} (h : (Cmd.format cmd).fits bytes.length = true) :
    Framed cfg other (frameEvents cfg cmd bytes) := by
  simpa [frameEvents] using Framed.frame (cfg := cfg) (other := other) cmd [bytes] (by simpa using h) .nil

end Framed

/-- The events of an instruction that belong to no frame: the delays of the table (R150), and the reset and chip-select calls of the
operations that drive those pins (R130 to R133, R147). -/
def sideEvent (cfg : Config) (i : Instr) : Event → Prop
  | .delay ms => ms ∈ delayTable cfg
  | .pin .rst _ r => r = .ok ∧ (i = .hardReset ∨ i = .initializePanel)
  | .pin .cs _ r => r = .ok ∧ (i = .release ∨ ∃ bus pins, i = .attach bus pins ∨ i = .attachConfig bus pins)
  | .pin .dc _ _ | .bus .. => False

section
variable {cfg : Config} {other : Event → Prop}

theorem windowEvents_framed (colStart rowStart colEnd rowEnd : Word) :
    Framed cfg other (windowEvents cfg colStart rowStart colEnd rowEnd) :=
  (Framed.parameters rfl).append (.parameters rfl)

theorem windowPlan_framed {colStart rowStart colEnd rowEnd : Word} {rest : List Event} (h : Framed cfg other rest) :
    Framed cfg other (windowPlan cfg colStart rowStart colEnd rowEnd rest).events := by
  unfold windowPlan
  split
  · exact .nil
  · split
    · exact .parameters rfl
    · exact (windowEvents_framed ..).append h

/-- The pixels of a stream are two bytes each (R74). -/
theorem pixelPhases_length (colors : List Word) : (colors.map be16).flatten.length = 2 * colors.length := by
  induction colors with
  | nil => rfl
  | cons c cs ih => rw [List.map_cons, List.flatten_cons, List.length_append, ih, List.length_cons]; simp [be16]; omega

/-- A pixel stream, with an empty data phase before its pixels or none (R100 corner case 2). -/
theorem stream_framed (empty : Bool) (colors : List Word) :
    Framed cfg other (commandEvents cfg .ramwr ++ ((if empty then dataEvents cfg [] else []) ++ pixelEvents cfg colors)) := by
  have hfits : (Cmd.format .ramwr).fits (colors.map be16).flatten.length = true := by
    rw [pixelPhases_length]
    simp [Cmd.format, Format.fits]
  have hpixels : pixelEvents cfg colors = (colors.map be16).flatMap (dataEvents cfg) := by
    rw [List.flatMap_map]
    rfl
  rw [hpixels]
  cases empty with
  | false => simpa using Framed.frame (cfg := cfg) (other := other) .ramwr (colors.map be16) hfits .nil
  | true => simpa using Framed.frame (cfg := cfg) (other := other) .ramwr ([] :: colors.map be16) (by simpa using hfits) .nil

theorem resetEvents_framed {i : Instr} (h : i = .hardReset ∨ i = .initializePanel) :
    Framed cfg (sideEvent cfg i) (hardResetEvents cfg) := by
  have hpin (l : Level) : sideEvent cfg i (.pin .rst l .ok) := ⟨rfl, h⟩
  have hdelay (ms : Nat) (hms : ms ∈ delayTable cfg) : sideEvent cfg i (.delay ms) := hms
  exact .other (hpin _) (.other (hdelay _ (by simp [delayTable])) (.other (hpin _) (.other (hdelay _ (by simp [delayTable]))
    (.other (hpin _) (.single (hdelay _ (by simp [delayTable])))))))

/-- A delay of the table. -/
theorem delay_framed {i : Instr} {ms : Nat} (h : ms ∈ delayTable cfg) : Framed cfg (sideEvent cfg i) [.delay ms] := .single h

end

theorem csPlan_framed {cfg : Config} {i : Instr} (h : i = .release ∨ ∃ bus pins, i = .attach bus pins ∨ i = .attachConfig bus pins)
    (made : Bool) (l : Level) : Framed cfg (sideEvent cfg i) (if made then [.pin .cs l .ok] else []) := by
  cases made with
  | false => exact .nil
  | true => exact .single ⟨rfl, h⟩

/-- The calls the spec lists for an instruction are frames between the events that are its own. -/
theorem plan_framed (i : Instr) (s : State) : Framed s.cfg (sideEvent s.cfg i) (plan s i).events := by
  cases i with
  | setColumnAddress start last | setRowAddress start last =>
    simp only [plan]
    split
    · exact .nil
    · exact .parameters rfl
  | setAddressWindow colStart rowStart colEnd rowEnd => exact windowPlan_framed .nil
  | writeSinglePixel x y color =>
    have h := stream_framed (cfg := s.cfg) (other := sideEvent s.cfg (.writeSinglePixel x y color)) false [color]
    simpa [plan, pixelEvents] using (windowEvents_framed x y x y).append h
  | writePixelStream colStart rowStart colEnd rowEnd colors =>
    refine windowPlan_framed ?_
    rw [openEvents, List.append_assoc]
    exact stream_framed _ _
  | ramwr colors => exact stream_framed false colors
  | hardReset => exact resetEvents_framed (.inl rfl)
  | softReset | sleepOut | sleepIn => exact (Framed.command rfl).append (delay_framed (by simp [delayTable]))
  | colorMode format => exact (Framed.parameters rfl).append (delay_framed (by simp [delayTable]))
  | initializePanel =>
    have hdelay (ms : Nat) (h : ms ∈ delayTable s.cfg) := delay_framed (i := .initializePanel) h
    exact (((((((((((resetEvents_framed (.inr rfl)).append (.command rfl)).append (hdelay _ (by simp [delayTable]))).append
      (.command rfl)).append (hdelay _ (by simp [delayTable]))).append (.parameters rfl)).append
      (hdelay _ (by simp [delayTable]))).append (.parameters rfl)).append (windowEvents_framed ..)).append
      (.command rfl)).append (.command rfl)).append (.command rfl)
  | attach bus pins => exact csPlan_framed (.inr ⟨bus, pins, .inl rfl⟩) _ _
  | attachConfig bus pins => exact csPlan_framed (.inr ⟨bus, pins, .inr rfl⟩) _ _
  | release => exact csPlan_framed (.inl rfl) _ _
  | memoryAccessControl | madctl | colmod | caset | raset => exact .parameters rfl
  | displayOn | displayOff | inversionOn | inversionOff | partialDisplayMode | normalMode | idleOn | idleOff | swreset | slpin | slpout
  | ptlon | noron | invoff | invon | dispoff | dispon | idmoff | idmon => exact .command rfl

/-! ## The events of a framed run -/

theorem Framed.mem {cfg : Config} {other : Event → Prop} {es : List Event} (h : Framed cfg other es) :
    ∀ e ∈ es, other e ∨ (∃ l, e = .pin .dc l .ok) ∨ ∃ bs, e = .bus bs .ok := by
  induction h with
  | nil => simp
  | other he _ ih => simpa [he] using ih
  | frame cmd phases _ _ ih =>
    simp only [commandEvents, dataEvents, List.mem_append, List.mem_flatMap, List.mem_cons, List.not_mem_nil, or_false]
    rintro e ((rfl | rfl) | ⟨bytes, -, rfl | rfl⟩ | he)
    · exact .inr (.inl ⟨_, rfl⟩)
    · exact .inr (.inr ⟨_, rfl⟩)
    · exact .inr (.inl ⟨_, rfl⟩)
    · exact .inr (.inr ⟨_, rfl⟩)
    · exact ih e he

/-- An event of an instruction's own is one of its delays, or a successful call on a pin that is not `DC`. -/
theorem sideEvent_cases {cfg : Config} {i : Instr} {e : Event} (h : sideEvent cfg i e) :
    (∃ ms, e = .delay ms) ∨ (∃ l, e = .pin .rst l .ok) ∨ ∃ l, e = .pin .cs l .ok := by
  cases e with
  | delay ms => exact .inl ⟨ms, rfl⟩
  | bus bs r => exact h.elim
  | pin p l r =>
    cases p with
    | dc => exact h.elim
    | rst =>
      obtain ⟨rfl, -⟩ := h
      exact .inr (.inl ⟨l, rfl⟩)
    | cs =>
      obtain ⟨rfl, -⟩ := h
      exact .inr (.inr ⟨l, rfl⟩)

/-- Every call the spec lists is listed as a success. -/
theorem plan_succeeding (i : Instr) (s : State) {es : List Event} (h : es ⊆ (plan s i).events) : es.map Event.succeeding = es := by
  refine (List.map_congr_left fun e he => ?_).trans (List.map_id es)
  rcases (plan_framed i s).mem e (h he) with hside | ⟨l, rfl⟩ | ⟨bs, rfl⟩
  · rcases sideEvent_cases hside with ⟨ms, rfl⟩ | ⟨l, rfl⟩ | ⟨l, rfl⟩ <;> rfl
  · rfl
  · rfl

theorem plan_err (i : Instr) (s : State) : OperandError (plan s i).err := by
  cases i with
  | setColumnAddress start last | setRowAddress start last => simp only [plan]; split <;> simp [OperandError]
  | setAddressWindow colStart rowStart colEnd rowEnd | writePixelStream colStart rowStart colEnd rowEnd colors =>
    simp only [plan, windowPlan]
    split
    · simp [OperandError]
    · split <;> simp [OperandError]
  | _ => exact operandError_none

/-- Everything that can be seen of an accepted instruction: all its calls, those up to the first that fails, or those before the first
that never returns (R186, R188, R218). -/
theorem observed_cases (i : Instr) (s : State) :
    observed i s = ((plan s i).events, (plan s i).err.map Stop.err) ∨
    (∃ earlier ev later e, (plan s i).events = earlier ++ ev :: later ∧ ev.asks = true ∧
      observed i s = (earlier ++ [ev.failing e], some (.err (ev.error e)))) ∨
    (∃ earlier later, (plan s i).events = earlier ++ later ∧ observed i s = (earlier, some .hang)) := by
  have hsub {earlier later : List Event} (h : (plan s i).events = earlier ++ later) : earlier.map Event.succeeding = earlier :=
    plan_succeeding i s (h ▸ List.subset_append_left _ _)
  rcases follow_cases (plan s i).err (plan s i).events s.env with h | ⟨earlier, ev, later, e, hes, hasks, h⟩ | ⟨earlier, ev, later, hes, h⟩
  · rw [plan_succeeding i s (List.Subset.refl _)] at h
    exact .inl h
  · rw [hsub hes] at h
    exact .inr (.inl ⟨earlier, ev, later, e, hes, hasks, h⟩)
  · rw [hsub hes] at h
    exact .inr (.inr ⟨earlier, ev :: later, hes, h⟩)

/-- Whatever is seen is a listed call, or one with its failure as its result. -/
theorem mem_observed {i : Instr} {s : State} {e : Event} (h : e ∈ (observed i s).1) :
    ∃ ev ∈ (plan s i).events, e = ev ∨ ∃ x, e = ev.failing x := by
  rcases observed_cases i s with ho | ⟨earlier, ev, later, x, hes, -, ho⟩ | ⟨earlier, later, hes, ho⟩ <;> rw [ho] at h
  · exact ⟨e, h, .inl rfl⟩
  · rcases List.mem_append.1 h with h | h
    · exact ⟨e, by simp [hes, h], .inl rfl⟩
    · exact ⟨ev, by simp [hes], .inr ⟨x, by simpa using h⟩⟩
  · exact ⟨e, by rw [hes]; exact List.mem_append_left _ h, .inl rfl⟩

/-! ## Delays and pins -/

/-- Settles O46: an event seen is a listed call or fails one, and only an instruction's own events are delays. -/
theorem onlyTheTablesDelaysOccur : Obligations.OnlyTheTablesDelaysOccur := by
  refine ⟨fun i s t h => ?_, fun ms => ?_⟩
  · obtain ⟨-, rfl⟩ := accepts_of_exec_next h
    refine ⟨_, answerOf_appends i s, fun ms hms => ?_⟩
    obtain ⟨ev, hev, heq⟩ := mem_observed hms
    obtain rfl : ev = .delay ms := by
      rcases heq with rfl | ⟨x, hx⟩
      · rfl
      · cases ev <;> simp_all [Event.failing]
    rcases (plan_framed i s).mem _ hev with hside | ⟨l, hl⟩ | ⟨bs, hbs⟩
    · exact hside
    · cases hl
    · cases hbs
  · simp only [delayTable, Config.default, List.mem_cons, List.not_mem_nil, or_false]
    omega

/-- A pin call seen is an instruction's own, unless it drives `DC`. -/
theorem sideEvent_of_pin_observed {i : Instr} {s : State} {p : Pin} {l : Level} {r : CallResult} (hp : p ≠ .dc)
    (h : Event.pin p l r ∈ (observed i s).1) : sideEvent s.cfg i (.pin p l .ok) := by
  obtain ⟨ev, hev, heq⟩ := mem_observed h
  obtain ⟨r', rfl⟩ : ∃ r', ev = .pin p l r' := by
    rcases heq with rfl | ⟨x, hx⟩
    · exact ⟨r, rfl⟩
    · cases ev <;> simp_all [Event.failing]
  rcases (plan_framed i s).mem _ hev with hside | ⟨l, hl⟩ | ⟨bs, hbs⟩
  · rcases sideEvent_cases hside with ⟨ms, h⟩ | ⟨l, h⟩ | ⟨l, h⟩ <;> cases h <;> exact hside
  · cases hl
    exact absurd rfl hp
  · cases hbs

/-- A pin keeps its shadow through the calls of an instruction none of whose own events drives it (R23). -/
theorem runOf_pin {i : Instr} {s : State} {p : Pin} (hp : p ≠ .dc) (h : ∀ l, ¬ sideEvent s.cfg i (.pin p l .ok)) :
    (runOf i s).state.pins.get p = (enter i s.accept).pins.get p := by
  refine perform_pin (fun c hc => ?_) _ _
  have hev : c.event ∈ (plan s i).events := by
    rw [← script_plan]
    exact List.mem_map_of_mem hc
  rcases (plan_framed i s).mem _ hev with hside | ⟨l, hl⟩ | ⟨bs, hbs⟩
  · rcases sideEvent_cases hside with ⟨ms, he⟩ | ⟨l, he⟩ | ⟨l, he⟩ <;> rw [he] at hside ⊢
    · rfl
    · exact decide_eq_false fun heq => h l (heq ▸ hside)
    · exact decide_eq_false fun heq => h l (heq ▸ hside)
  · rw [hl]
    exact decide_eq_false fun heq => hp heq.symm
  · rw [hbs]
    rfl

/-! ## The phases of a frame -/

/-- The shape of 40_framer R102, R103 that a bus write of `bs` needs before it. -/
def InPhase (cfg : Config) (before : List Event) (bs : List Byte) : Prop :=
  (∃ earlier cmd, before = earlier ++ [.pin .dc cfg.dcCmdLevel .ok] ∧ bs = [opcode cfg cmd]) ∨
  ∃ earlier bs', before = earlier ++ [.bus bs' .ok, .pin .dc (dcDataLevel cfg) .ok]

section
variable {cfg : Config} {es es' : List Event}

theorem InPhase.after {before : List Event} {bs : List Byte} (h : InPhase cfg before bs) (earlier : List Event) :
    InPhase cfg (earlier ++ before) bs := by
  rcases h with ⟨e, cmd, rfl, hbs⟩ | ⟨e, bs', rfl⟩
  · exact .inl ⟨earlier ++ e, cmd, (List.append_assoc ..).symm, hbs⟩
  · exact .inr ⟨earlier ++ e, bs', (List.append_assoc ..).symm⟩

theorem phased_iff : Phased cfg es ↔ ∀ before bs r after, es = before ++ Event.bus bs r :: after → InPhase cfg before bs := Iff.rfl

theorem phased_nil : Phased cfg [] := by
  rintro before bs r after h
  simp at h

/-- One more event keeps the discipline, if as a bus write it stands in its phase. -/
theorem Phased.snoc {e : Event} (h : Phased cfg es) (he : ∀ bs r, e = .bus bs r → InPhase cfg es bs) : Phased cfg (es ++ [e]) := by
  intro before bs r after heq
  rcases List.eq_nil_or_concat after with rfl | ⟨init, last, rfl⟩
  · obtain ⟨rfl, hlast⟩ := List.append_inj' heq rfl
    exact he bs r (by simpa using hlast)
  · rw [List.concat_eq_append, ← List.cons_append, ← List.append_assoc] at heq
    exact h before bs r init (List.append_inj' heq rfl).1

theorem Phased.append (h : Phased cfg es) (h' : Phased cfg es') : Phased cfg (es ++ es') := by
  intro before bs r after heq
  rcases List.append_eq_append_iff.1 heq with ⟨c, rfl, hes'⟩ | ⟨c, rfl, hc⟩
  · exact (phased_iff.1 h' c bs r after hes').after es
  · cases c with
    | nil => exact List.append_nil before ▸ (phased_iff.1 h' [] bs r after hc.symm).after before
    | cons e c =>
      obtain ⟨rfl, -⟩ := List.cons_eq_cons.1 hc
      exact h before bs r c rfl

theorem Phased.left (h : Phased cfg (es ++ es')) : Phased cfg es := by
  rintro before bs r after rfl
  exact h before bs r (after ++ es') (by simp)

theorem commandEvents_phased (cmd : Cmd) : Phased cfg (commandEvents cfg cmd) := by
  have hpin : Phased cfg [.pin .dc cfg.dcCmdLevel .ok] := Phased.snoc phased_nil nofun
  refine Phased.snoc hpin fun bs r heq => ?_
  obtain ⟨rfl, -⟩ := Event.bus.inj heq
  exact .inl ⟨[], cmd, rfl, rfl⟩

/-- Data phases after a bus write keep the discipline, each ending in a bus write for the next. -/
theorem Phased.dataPhases (phases : List (List Byte)) {bs : List Byte} (h : Phased cfg (es ++ [.bus bs .ok])) :
    Phased cfg ((es ++ [.bus bs .ok]) ++ phases.flatMap (dataEvents cfg)) := by
  induction phases generalizing es bs with
  | nil => simpa using h
  | cons bytes rest ih =>
    have hpin : Phased cfg ((es ++ [.bus bs .ok]) ++ [.pin .dc (dcDataLevel cfg) .ok]) := h.snoc nofun
    have hbus : Phased cfg (((es ++ [.bus bs .ok]) ++ [.pin .dc (dcDataLevel cfg) .ok]) ++ [.bus bytes .ok]) :=
      hpin.snoc fun bs' r _ => .inr ⟨es, bs, by simp⟩
    simpa [dataEvents] using ih hbus

/-- Frames between events that are no bus writes stand in their phases (R102, R103). -/
theorem Framed.phased {other : Event → Prop} (hother : ∀ bs r, ¬ other (.bus bs r)) (h : Framed cfg other es) : Phased cfg es := by
  induction h with
  | nil => exact phased_nil
  | @other e es he _ ih =>
    have hsingle : Phased cfg [e] := Phased.snoc phased_nil fun bs r heq => absurd (heq ▸ he) (hother bs r)
    exact hsingle.append ih
  | frame cmd phases _ _ ih =>
    have hcommand : Phased cfg ([.pin .dc cfg.dcCmdLevel .ok] ++ [.bus [opcode cfg cmd] .ok]) := commandEvents_phased cmd
    simpa [commandEvents] using (hcommand.dataPhases phases).append ih

/-- The last event of a disciplined run with another result. -/
theorem Phased.failing_last {ev : Event} {e : ErrorValue} (h : Phased cfg (es ++ [ev])) : Phased cfg (es ++ [ev.failing e]) := by
  refine h.left.snoc fun bs r heq => ?_
  cases ev with
  | bus bs' r' =>
    obtain ⟨rfl, -⟩ := Event.bus.inj heq
    exact h es bs' r' [] rfl
  | pin p l r' => cases heq
  | delay n => cases heq

end

/-- Settles O45: the listed calls are frames, and cutting them short or failing the last one moves no bus write out of its phase. -/
theorem everyBusWriteStandsInItsPhase : Obligations.EveryBusWriteStandsInItsPhase := by
  intro i s t h
  obtain ⟨-, rfl⟩ := accepts_of_exec_next h
  refine ⟨_, answerOf_appends i s, ?_⟩
  have hplan : Phased s.cfg (plan s i).events := (plan_framed i s).phased fun bs r => id
  rcases observed_cases i s with ho | ⟨earlier, ev, later, e, hes, -, ho⟩ | ⟨earlier, later, hes, ho⟩ <;> rw [ho]
  · exact hplan
  · rw [hes, ← List.singleton_append, ← List.append_assoc] at hplan
    exact hplan.left.failing_last
  · rw [hes] at hplan
    exact hplan.left

/-! ## Precise errors -/

/-- A call that fails is seen with the error it raises (R184, R185). -/
theorem Event.failing_of_error {ev : Event} {x : ErrorValue} (hasks : ev.asks = true) :
    (∀ e, ev.error x = .pinError e → ∃ p l, ev.failing x = .pin p l (.fail e)) ∧
    (∀ e, ev.error x = .busError e → ∃ bs, ev.failing x = .bus bs (.fail e)) := by
  cases ev with
  | pin p l r => exact ⟨fun e h => by cases h; exact ⟨p, l, rfl⟩, nofun⟩
  | bus bs r => exact ⟨nofun, fun e h => by cases h; exact ⟨bs, rfl⟩⟩
  | delay n => cases hasks

/-- Every listed call reports success. -/
theorem plan_all_succeeded {i : Instr} {s : State} {es : List Event} (h : es ⊆ (plan s i).events) : es.all Event.succeeded = true := by
  rw [List.all_eq_true]
  intro e he
  rw [← plan_succeeding i s h] at he
  obtain ⟨ev, -, rfl⟩ := List.mem_map.1 he
  cases ev <;> rfl

/-- A result an accepted instruction returned is the one its run ends in. -/
theorem returned_result {i : Instr} {s : State} {r : Result} (h : (answerOf i s).results = s.results ++ [r]) :
    (observed i s).2 = r.err.map Stop.err := by
  have hends := answerOf_ends i s
  split at hends <;> obtain ⟨-, hresults, -⟩ := hends <;> rw [hresults] at h
  · obtain rfl : ⟨none, _⟩ = r := by simpa using h
    assumption
  · obtain rfl : ⟨some _, _⟩ = r := by simpa using h
    assumption
  · simp at h

theorem hung_of_busy {i : Instr} {s : State} (h : (answerOf i s).busy = true) :
    (observed i s).2 = some .hang ∧ (answerOf i s).results = s.results := by
  have hends := answerOf_ends i s
  split at hends <;> obtain ⟨hbusy, hresults, -⟩ := hends
  · simp [hbusy] at h
  · simp [hbusy] at h
  · exact ⟨by assumption, hresults⟩

/-- If the run did not end at a failing call, every event seen succeeded. -/
theorem observed_all_succeeded {i : Instr} {s : State} (h : ∀ e, (observed i s).2 ≠ some (.err (.pinError e)) ∧
    (observed i s).2 ≠ some (.err (.busError e))) : (observed i s).1.all Event.succeeded = true := by
  rcases observed_cases i s with ho | ⟨earlier, ev, later, e, hes, hasks, ho⟩ | ⟨earlier, later, hes, ho⟩
  · rw [ho]
    exact plan_all_succeeded (List.Subset.refl _)
  · obtain ⟨hpin, hbus⟩ := h e
    rw [ho] at hpin hbus
    cases ev with
    | pin p l r => exact absurd rfl hpin
    | bus bs r => exact absurd rfl hbus
    | delay n => cases hasks
  · rw [ho]
    exact plan_all_succeeded (hes ▸ List.subset_append_left _ _)

/-- A run that ends in an error no operand calls for ends at the call that failed with it (R188). -/
theorem observed_of_callError {i : Instr} {s : State} {err : Err} (h : (observed i s).2 = some (.err err))
    (hcall : (Stop.err err).AtCall) :
    ∃ (earlier : List Event) (ev : Event) (e : ErrorValue), (observed i s).1 = earlier ++ [ev.failing e] ∧ earlier.all Event.succeeded = true ∧ ev.asks = true ∧ ev.error e = err := by
  rcases observed_cases i s with ho | ⟨earlier, ev, later, e, hes, hasks, ho⟩ | ⟨earlier, later, hes, ho⟩ <;> rw [ho] at h ⊢
  · obtain ⟨e, he, heq⟩ := Option.map_eq_some_iff.1 h
    cases heq
    rcases plan_err i s err he with rfl | rfl <;> exact hcall.elim
  · cases h
    exact ⟨earlier, ev, e, rfl, plan_all_succeeded (hes ▸ List.subset_append_left _ _), hasks, rfl⟩
  · cases h

/-- Settles O44: what is seen is the listed calls, which are successes, up to the failing one. -/
theorem errorsArePreciseInTheTrace : Obligations.ErrorsArePreciseInTheTrace := by
  intro i s t h
  obtain ⟨-, rfl⟩ := accepts_of_exec_next h
  refine ⟨_, answerOf_appends i s, fun e back hres => ?_, fun e back hres => ?_, fun r hres herr => ?_, fun hbusy => ?_⟩
  · obtain ⟨earlier, ev, x, ho, hall, hasks, hev⟩ := observed_of_callError (returned_result hres) trivial
    obtain ⟨p, l, hfail⟩ := (Event.failing_of_error hasks).1 e hev
    exact ⟨earlier, p, l, hfail ▸ ho, hall⟩
  · obtain ⟨earlier, ev, x, ho, hall, hasks, hev⟩ := observed_of_callError (returned_result hres) trivial
    obtain ⟨bs, hfail⟩ := (Event.failing_of_error hasks).2 e hev
    exact ⟨earlier, bs, hfail ▸ ho, hall⟩
  · refine observed_all_succeeded fun e => ?_
    rw [returned_result hres]
    rcases herr with h | h | h <;> simp [h]
  · obtain ⟨hstop, hresults⟩ := hung_of_busy hbusy
    exact ⟨hresults, observed_all_succeeded fun e => by simp [hstop]⟩

end Sys2Proof.Machine

/-! What an operation leaves unchanged of the block, that nothing it does depends on the controller, the pin shadows or the trace,
and what a receiver reads from the wire. -/

namespace Sys2Proof.Machine

/-! ## Pins -/

/-- The lifecycle operations make at most their chip-select call; without it the block is as it was on entry. -/
theorem runOf_without_calls {i : Instr} {s : State} (h : (script s.cfg s.hasCs i).calls = []) (herr : (script s.cfg s.hasCs i).err = none) :
    runOf i s = .done (enter i s.accept) := by
  rw [runOf, Script.run, h, herr, perform_nil]

theorem attach_keeps_ghost_pins {i : Instr} {bus : Handle} {pins : PinBundle} (hi : i = .attach bus pins ∨ i = .attachConfig bus pins)
    (s : State) : (enter i s).pins = ⟨.unknown, .unknown, .unknown⟩ ∧ (enter i s).ghost = s.ghost := by
  rcases hi with rfl | rfl <;> exact ⟨rfl, rfl⟩

/-- An instruction that is no lifecycle operation leaves the chip-select pin alone (R23). -/
theorem runOf_keeps_cs {i : Instr} (hattach : ¬ ∃ bus pins, i = .attach bus pins ∨ i = .attachConfig bus pins) (hrelease : i ≠ .release)
    (s : State) : (runOf i s).state.pins.cs = s.pins.cs := by
  have hkeeps := runOf_pin (i := i) (s := s) (p := .cs) nofun fun l hside => hside.2.elim hrelease hattach
  rw [enter_of_not_lifecycle (fun bus pins hi => hattach ⟨bus, pins, .inl hi⟩) (fun bus pins hi => hattach ⟨bus, pins, .inr hi⟩)
    hrelease] at hkeeps
  exact hkeeps

/-- Attached without a chip-select pin, the block knows no pin level (R130). -/
theorem runOf_attach_without_cs {i : Instr} {bus : Handle} {pins : PinBundle} (hi : i = .attach bus pins ∨ i = .attachConfig bus pins)
    (hcs : pins.cs = none) (s : State) : (runOf i s).state.pins = ⟨.unknown, .unknown, .unknown⟩ := by
  have hnone : runOf i s = .done (enter i s.accept) := by
    rcases hi with rfl | rfl <;> exact runOf_without_calls (by simp [script, csCalls, hcs, Script.ofCalls]) rfl
  rw [hnone]
  exact (attach_keeps_ghost_pins hi _).1

/-- Settles O48: the own events of an instruction say which of the two pins it drives. -/
theorem pinsAreDrivenByTheirOwners : Obligations.PinsAreDrivenByTheirOwners := by
  intro i s t h
  obtain ⟨-, rfl⟩ := accepts_of_exec_next h
  rw [answerOf_pins]
  refine ⟨?_, ?_, _, answerOf_appends i s, fun l r he => ?_, fun l r he => ?_⟩
  · by_cases hreset : i = .hardReset ∨ i = .initializePanel
    · rcases hreset with h | h <;> simp [h]
    have hkeeps : (runOf i s).state.pins.rst = (enter i s.accept).pins.rst :=
      runOf_pin (p := .rst) nofun fun l hside => hreset hside.2
    by_cases hattach : ∃ bus pins, i = .attach bus pins ∨ i = .attachConfig bus pins
    · obtain ⟨bus, pins, hi⟩ := hattach
      exact .inr (.inr (.inr ⟨bus, pins, hi, by rw [hkeeps, (attach_keeps_ghost_pins hi _).1]⟩))
    · left
      rw [hkeeps]
      cases i with
      | attach bus pins => exact absurd ⟨bus, pins, .inl rfl⟩ hattach
      | attachConfig bus pins => exact absurd ⟨bus, pins, .inr rfl⟩ hattach
      | _ => rfl
  · by_cases hattach : ∃ bus pins, i = .attach bus pins ∨ i = .attachConfig bus pins
    · obtain ⟨bus, pins, hi⟩ := hattach
      exact .inr (.inr ⟨bus, pins, hi, fun hcs => by rw [runOf_attach_without_cs hi hcs]⟩)
    by_cases hrelease : i = .release
    · subst hrelease
      cases hcs : s.hasCs with
      | true => exact .inr (.inl ⟨rfl, rfl⟩)
      | false =>
        left
        rw [runOf_without_calls (by simp [script, csCalls, hcs, Script.ofCalls]) rfl]
        rfl
    · left
      exact runOf_keeps_cs hattach hrelease s
  · exact (sideEvent_of_pin_observed (p := .rst) nofun he).2
  · exact (sideEvent_of_pin_observed (p := .cs) nofun he).2

/-! ## Frames of the block's own state -/

/-- A state with the life state, the resources, the parameters, the host's liberty and the two other pins of `s`. -/
theorem State.eq_handleTouched {s t : State} (hlife : t.life = s.life) (hres : t.res = s.res) (hcfg : t.cfg = s.cfg)
    (hhost : t.hostUsesBus = s.hostUsesBus) (hrst : t.pins.rst = s.pins.rst) (hcs : t.pins.cs = s.pins.cs) : t = s.handleTouched t := by
  simp only [State.handleTouched, ← hlife, ← hres, ← hcfg, ← hhost, ← hrst, ← hcs]

/-- Settles O53: the calls of such an instruction are on `DC` alone, and it writes nothing before them. -/
theorem handleOperationsFrame : Obligations.HandleOperationsFrame := by
  intro i s t h hattach hconfig hrelease hhard hinit
  obtain ⟨-, rfl⟩ := accepts_of_exec_next h
  have henter : enter i s.accept = s.accept := enter_of_not_lifecycle hattach hconfig hrelease _
  have hrst := runOf_pin (i := i) (s := s) (p := .rst) nofun fun l hside => hside.2.elim hhard hinit
  have hcs := runOf_pin (i := i) (s := s) (p := .cs) nofun fun l hside => hside.2.elim hrelease fun ⟨bus, pins, hi⟩ =>
    hi.elim (hattach bus pins) (hconfig bus pins)
  rw [henter] at hrst hcs
  exact State.eq_handleTouched (by rw [answerOf_life, runOf_life, henter]; rfl) (by rw [answerOf_res, runOf_res, henter]; rfl)
    (by rw [answerOf_cfg, runOf_cfg]) (by rw [answerOf_hostUsesBus, runOf_hostUsesBus]) (by rw [answerOf_pins]; exact hrst)
    (by rw [answerOf_pins]; exact hcs)

/-- The calls of a lifecycle operation mean nothing to the controller. -/
theorem csCalls_keep_ghost (made : Bool) (l : Level) (s : State) : (perform none (csCalls made l) s).state.ghost = s.ghost := by
  refine perform_within (R := fun a b => b.ghost = a.ghost) (fun _ => rfl) (fun hab hbc => hbc.trans hab) (fun c hc u => ?_) none s
  obtain rfl : c = ⟨.pin .cs l .ok, id, id⟩ := by
    cases made with
    | false => cases hc
    | true => simpa [csCalls] using hc
  rcases Call.run_cases ⟨.pin .cs l .ok, id, id⟩ u with ⟨-, h⟩ | ⟨-, e, -, h⟩ | ⟨-, -, h⟩ <;> rw [h] <;> rfl

/-- Settles O58: the parameters and the host's liberty are no call's to change; the rest is what each operation writes on entry. -/
theorem lifecycleFrame : Obligations.LifecycleFrame := by
  intro i s t h
  obtain ⟨-, rfl⟩ := accepts_of_exec_next h
  simp only [answerOf_cfg, answerOf_hostUsesBus, answerOf_pins, answerOf_ghost, answerOf_life, answerOf_res, runOf_cfg, runOf_hostUsesBus,
    runOf_life, runOf_res]
  refine ⟨trivial, trivial, ?_, ?_, ?_, ?_⟩
  · rintro bus pins (rfl | rfl) <;> exact csCalls_keep_ghost _ _ _
  · rintro rfl
    have hother (p : Pin) (hdc : p ≠ .cs) : (runOf .release s).state.pins.get p = s.pins.get p := by
      refine perform_pin (fun c hc => ?_) none _
      obtain rfl : c = ⟨.pin .cs .high .ok, id, id⟩ := by
        cases hcs : s.hasCs <;> simp_all [script, Script.ofCalls, csCalls]
      exact decide_eq_false hdc.symm
    refine ⟨hother .dc nofun, hother .rst nofun, fun hhost => ?_⟩
    exact (csCalls_keep_ghost _ _ _).trans (by simp [enter, hhost])
  · rintro rfl
    have hdc : (runOf .hardReset s).state.pins.get .dc = s.pins.get .dc := by
      refine perform_pin (fun c hc => ?_) none _
      simp only [script, Script.ofCalls, resetCalls, List.mem_cons, List.not_mem_nil, or_false] at hc
      rcases hc with rfl | rfl | rfl | rfl | rfl | rfl <;> rfl
    exact ⟨rfl, rfl, hdc, runOf_pin (p := .cs) nofun fun l hside => by simp [sideEvent] at hside⟩
  · rintro rfl
    exact ⟨rfl, rfl, runOf_pin (p := .cs) nofun fun l hside => by simp [sideEvent] at hside⟩

/-! ## Two runs side by side -/

/-- Two runs that end the same way in states related by `R`. -/
def Run.Alike (R : State → State → Prop) : Run → Run → Prop
  | .done s, .done t => R s t
  | .stopped w s, .stopped v t => w = v ∧ R s t
  | _, _ => False

/-- What a relation has to keep for two scripts with the same calls to run alike. -/
structure Lockstep (R : State → State → Prop) : Prop where
  env : ∀ {s t}, R s t → s.env = t.env
  did : ∀ {s t} (ev : Event) (f g : Ghost → Ghost), R s t → R ((s.did ev).onGhost f) ((t.did ev).onGhost g)
  missed : ∀ {s t} (e : ErrorValue) (ev : Event) (f g : Ghost → Ghost), R s t → R ((s.missed e ev).onGhost f) ((t.missed e ev).onGhost g)
  stuck : ∀ {s t} (ev : Event) (f g : Ghost → Ghost), R s t → R ((s.stuck ev).onGhost f) ((t.stuck ev).onGhost g)

theorem Call.run_alike {R : State → State → Prop} (hR : Lockstep R) {c d : Call} (hev : c.event = d.event) {s t : State} (h : R s t) :
    (c.run s).Alike R (d.run t) := by
  have hanswer : s.answer = t.answer := by rw [State.answer, State.answer, hR.env h]
  rcases c.run_cases s with ⟨ha, hc⟩ | ⟨hasks, e, ha, hc⟩ | ⟨hasks, ha, hc⟩ <;> rw [hc] <;> rw [hev] at *
  · rw [Call.run_ok (hanswer ▸ ha)]
    exact hR.did _ _ _ h
  · rw [Call.run_fail hasks (hanswer ▸ ha)]
    exact ⟨rfl, hR.missed _ _ _ _ h⟩
  · rw [Call.run_never hasks (hanswer ▸ ha)]
    exact ⟨rfl, hR.stuck _ _ _ h⟩

/-- Two scripts that make the same calls run alike, whatever each means to the controller. -/
theorem perform_alike {R : State → State → Prop} (hR : Lockstep R) (err : Option Err) {cs ds : List Call}
    (hcalls : cs.map Call.event = ds.map Call.event) {s t : State} (h : R s t) : (perform err cs s).Alike R (perform err ds t) := by
  induction cs generalizing ds s t with
  | nil =>
    obtain rfl : ds = [] := by simpa using hcalls.symm
    cases err with
    | none => exact h
    | some e => exact ⟨rfl, h⟩
  | cons c cs ih =>
    cases ds with
    | nil => cases hcalls
    | cons d ds =>
      obtain ⟨hev, hrest⟩ := List.cons_eq_cons.1 hcalls
      have hrun := Call.run_alike hR hev h
      rw [perform, perform]
      cases hc : c.run s <;> cases hd : d.run t <;> rw [hc, hd] at hrun
      · exact ih hrest hrun
      · exact hrun.elim
      · exact hrun.elim
      · exact hrun

/-- The states differ in the controller, the pin shadows and the trace alone. -/
def SameButShadows (s t : State) : Prop := t = { s with ghost := t.ghost, pins := t.pins, trace := t.trace }

theorem sameButShadows_lockstep : Lockstep SameButShadows where
  env h := by rw [h]
  did ev f g h := by rw [h]; cases ev <;> rfl
  missed e ev f g h := by rw [h]; rfl
  stuck ev f g h := by rw [h]; rfl

theorem Run.Alike.returned {r r' : Run} (back backOnErr : Option Resources) (h : r.Alike SameButShadows r') :
    SameButShadows (r.returned back backOnErr) (r'.returned back backOnErr) := by
  cases r with
  | done s =>
    cases r' with
    | stopped w t => exact h.elim
    | done t =>
      have hst : SameButShadows s t := h
      rw [hst]
      rfl
  | stopped w s =>
    cases r' with
    | done t => exact h.elim
    | stopped v t =>
      obtain ⟨rfl, hst⟩ : w = v ∧ SameButShadows s t := h
      rw [hst]
      cases w <;> rfl

/-- Settles O47: acceptance, the script and the fields written on entry do not depend on them, and scripts with the same calls run alike. -/
theorem shadowsAndTraceAreNeverRead : Obligations.ShadowsAndTraceAreNeverRead := by
  intro i s g ps tr
  have hback : handedBack { s with ghost := g, pins := ps, trace := tr } i = handedBack s i ∧
      handedBackOnError { s with ghost := g, pins := ps, trace := tr } i = handedBackOnError s i := by cases i <;> exact ⟨rfl, rfl⟩
  have hobserved : observed i { s with ghost := g, pins := ps, trace := tr } = observed i s := by cases i <;> rfl
  have henter : SameButShadows (enter i s.accept) (enter i (State.accept { s with ghost := g, pins := ps, trace := tr })) := by
    cases i <;> rfl
  by_cases ha : Accepts s i
  · rw [exec_of_accepts ha, exec_of_accepts (s := { s with ghost := g, pins := ps, trace := tr }) ⟨ha.free, ha.life, ha.legal⟩]
    refine ⟨?_, (observed i s).1, answerOf_appends i s, ?_⟩
    · rw [answerOf, answerOf, hback.1, hback.2]
      exact Run.Alike.returned _ _ (perform_alike sameButShadows_lockstep _ rfl henter)
    · rw [answerOf_appends, hobserved]
  · rw [exec_of_not_accepts ha, exec_of_not_accepts (s := { s with ghost := g, pins := ps, trace := tr })
      fun h => ha ⟨h.free, h.life, h.legal⟩]
    rfl

/-! ## The wire -/

/-- The frames and the data bytes left over that a receiver has read when it comes, from the end, to event number `k`. -/
def readBack (cfg : Config) (cut : Nat → Nat) (k : Nat) (ps : Pins) (es : List Event) : List WireFrame × List Byte :=
  (wireFrom (fun _ _ => true) cut k ps es).foldr (wireFrameStep cfg) ([], [])

section
variable {cfg : Config} {cut : Nat → Nat}

theorem readBack_cons (k : Nat) (ps : Pins) (e : Event) (es : List Event) :
    readBack cfg cut k ps (e :: es) = (wireItems cut k ps.dc e).foldr (wireFrameStep cfg) (readBack cfg cut (k + 1) (ps.after e) es) := by
  simp [readBack, wireFrom, List.foldr_append]

theorem dcDataLevel_ne (cfg : Config) : dcDataLevel cfg ≠ cfg.dcCmdLevel := by
  unfold dcDataLevel
  cases cfg.dcCmdLevel <;> nofun

/-- Bytes at the data level are data bytes of the frame before (R80). -/
theorem foldr_dataBytes (bytes : List Byte) (acc : List WireFrame × List Byte) :
    (bytes.map (WireItem.byte (.known (dcDataLevel cfg)))).foldr (wireFrameStep cfg) acc = (acc.1, bytes ++ acc.2) := by
  induction bytes with
  | nil => rfl
  | cons b bs ih => simp [ih, wireFrameStep, dcDataLevel_ne]

/-- A data phase's bytes belong to the frame before it (R80). -/
theorem readBack_dataEvents (k : Nat) (ps : Pins) (bytes : List Byte) (es : List Event) :
    readBack cfg cut k ps (dataEvents cfg bytes ++ es) =
      ((readBack cfg cut (k + 2) { ps with dc := .known (dcDataLevel cfg) } es).1,
        bytes ++ (readBack cfg cut (k + 2) { ps with dc := .known (dcDataLevel cfg) } es).2) := by
  rw [dataEvents, List.cons_append, List.cons_append, List.nil_append, readBack_cons, readBack_cons]
  exact foldr_dataBytes bytes _

/-- A command phase is an opcode, with the data bytes that follow (R70, R80). -/
theorem readBack_commandEvents (k : Nat) (ps : Pins) (cmd : Cmd) (es : List Event) :
    readBack cfg cut k ps (commandEvents cfg cmd ++ es) =
      (⟨opcode cfg cmd, (readBack cfg cut (k + 2) { ps with dc := .known cfg.dcCmdLevel } es).2⟩ ::
        (readBack cfg cut (k + 2) { ps with dc := .known cfg.dcCmdLevel } es).1, []) := by
  rw [commandEvents, List.cons_append, List.cons_append, List.nil_append, readBack_cons, readBack_cons]
  exact if_pos rfl

theorem readBack_dataPhases (phases : List (List Byte)) (k : Nat) (ps : Pins) (es : List Event) :
    ∃ k' ps', readBack cfg cut k ps (phases.flatMap (dataEvents cfg) ++ es) =
      ((readBack cfg cut k' ps' es).1, phases.flatten ++ (readBack cfg cut k' ps' es).2) := by
  induction phases generalizing k ps with
  | nil => exact ⟨k, ps, rfl⟩
  | cons bytes rest ih =>
    rw [List.flatMap_cons, List.append_assoc]
    obtain ⟨k', ps', h⟩ := ih (k + 2) { ps with dc := .known (dcDataLevel cfg) }
    exact ⟨k', ps', by simp [readBack_dataEvents, h]⟩

/-- An event of an instruction's own puts no byte on the wire. -/
theorem readBack_sideEvent {i : Instr} {e : Event} (h : sideEvent cfg i e) (k : Nat) (ps : Pins) (es : List Event) :
    readBack cfg cut k ps (e :: es) = readBack cfg cut (k + 1) (ps.after e) es := by
  rw [readBack_cons]
  rcases sideEvent_cases h with ⟨ms, rfl⟩ | ⟨l, rfl⟩ | ⟨l, rfl⟩ <;> rfl

/-- A receiver reads whole frames from a framed run, each fitting its command's format, and no byte before the first (R80). -/
theorem readBack_framed (hopc : cfg.opc.toList.Nodup) {i : Instr} {es : List Event} (h : Framed cfg (sideEvent cfg i) es)
    (k : Nat) (ps : Pins) : (readBack cfg cut k ps es).1.all (frameFits cfg) = true ∧ (readBack cfg cut k ps es).2 = [] := by
  induction h generalizing k ps with
  | nil => exact ⟨rfl, rfl⟩
  | other he _ ih =>
    rw [readBack_sideEvent he]
    exact ih _ _
  | @frame es cmd phases hfits _ ih =>
    obtain ⟨k', ps', hphases⟩ := readBack_dataPhases (cfg := cfg) (cut := cut) phases (k + 2) { ps with dc := .known cfg.dcCmdLevel } es
    obtain ⟨hall, hleft⟩ := ih k' ps'
    rw [readBack_commandEvents, hphases, hleft, List.append_nil, List.all_cons, hall]
    refine ⟨?_, rfl⟩
    rw [frameFits, cmdOfOpcode_opcode hopc]
    simpa using hfits

/-- A call that R12 forgets puts nothing on the wire that a receiver reads as part of a frame. -/
theorem foldr_wireItems_of_not_seen {ps : Pins} {e : Event} (h : seenByController ps e = false) (k : Nat)
    (acc : List WireFrame × List Byte) : (wireItems cut k ps.dc e).foldr (wireFrameStep cfg) acc = acc := by
  cases e with
  | pin p l r => cases p <;> rfl
  | delay ms => cases h
  | bus bs r =>
    obtain rfl : bs = [] := by simpa [seenByController] using h
    cases r with
    | ok => rfl
    | fail x => simp [wireItems, wireFrameStep]

/-- The two wire views read as the same frames, from any point on (R12, R33; log 37). -/
theorem foldr_wireFrom_seen (es : List Event) (k : Nat) (ps : Pins) (acc : List WireFrame × List Byte) :
    (wireFrom seenByController cut k ps es).foldr (wireFrameStep cfg) acc =
      (wireFrom (fun _ _ => true) cut k ps es).foldr (wireFrameStep cfg) acc := by
  induction es generalizing k ps with
  | nil => rfl
  | cons e es ih =>
    simp only [wireFrom, List.foldr_append, ih, if_true]
    cases h : seenByController ps e with
    | true => rfl
    | false => exact (foldr_wireItems_of_not_seen h k _).symm

end

/-- With `Ok`, every listed call was made and succeeded. -/
theorem observed_of_ok {i : Instr} {s : State} {back : Option Resources} (h : (answerOf i s).results = s.results ++ [⟨none, back⟩]) :
    (observed i s).1 = (plan s i).events := by
  have hstop := returned_result h
  rcases observed_cases i s with ho | ⟨earlier, ev, later, e, -, -, ho⟩ | ⟨earlier, later, -, ho⟩ <;> rw [ho] at hstop ⊢ <;> cases hstop

/-- Settles O59: with `Ok` the events are the listed calls, which are frames; and what R12 forgets carries no byte. -/
theorem receiverReadsWholeFrames : Obligations.ReceiverReadsWholeFrames := by
  refine ⟨fun i s t cut back hcfg h hres => ?_, fun cfg cut trace => ?_⟩
  · obtain ⟨hopc, -⟩ := hcfg
    obtain ⟨-, rfl⟩ := accepts_of_exec_next h
    refine ⟨_, answerOf_appends i s, ?_⟩
    rw [observed_of_ok hres]
    exact (readBack_framed hopc (plan_framed i s) 0 Pins.undriven).1
  · rw [wireFrames, wireFrames, wireSeen, wire, foldr_wireFrom_seen]

end Sys2Proof.Machine

/-! A script when all its calls succeed, and when the one after some successful calls fails; the outcomes of the operations that send one
frame, of the reset pulse and of the lifecycle operations. -/

namespace Sys2Proof.Machine

/-! ## Scripts with known answers -/

/-- How many answers a list of calls takes. -/
def asked (cs : List Call) : Nat := cs.countP fun c => c.event.asks

/-- The pin shadows after a successful call. -/
def Pins.did (ps : Pins) : Event → Pins
  | .pin p l _ => ps.set p (.known l)
  | .bus .. | .delay _ => ps

/-- The pin shadows after calls that all succeed. -/
def pinsAfter (cs : List Call) (ps : Pins) : Pins := cs.foldl (fun ps c => ps.did c.event) ps

/-- The controller after calls that all succeed. -/
def ghostAfter (cs : List Call) (g : Ghost) : Ghost := cs.foldl (fun g c => c.after g) g

/-- The state after calls that all succeed. -/
def State.after (s : State) (cs : List Call) : State :=
  { s with env := s.env.drop (asked cs), trace := s.trace ++ cs.map fun c => c.event.succeeding,
           pins := pinsAfter cs s.pins, ghost := ghostAfter cs s.ghost }

theorem State.after_nil (s : State) : s.after [] = s := by simp [State.after, asked, pinsAfter, ghostAfter]

theorem State.after_cons (s : State) (c : Call) (cs : List Call) :
    s.after (c :: cs) = ((s.did c.event).onGhost c.after).after cs := by
  obtain ⟨ev, cut, after⟩ := c
  cases ev <;> simp [State.after, asked, pinsAfter, ghostAfter, State.did, Pins.did, Event.asks, Event.succeeding, State.onGhost,
    State.log, State.answered, State.setPin]

theorem answersOk_cons {c : Call} {cs : List Call} {s : State} (h : s.AnswersOk (asked (c :: cs))) :
    (c.event.asks = true → s.answer = .ok) ∧ ((s.did c.event).onGhost c.after).AnswersOk (asked cs) := by
  cases hc : c.event.asks with
  | true =>
    have hcount : asked (c :: cs) = asked cs + 1 := List.countP_cons_of_pos hc
    rw [hcount] at h
    refine ⟨fun _ => answersOk_answer h, ?_⟩
    have henv : ((s.did c.event).onGhost c.after).env = s.answered.env := by simp [Event.answersLeft, hc]
    intro a ha
    rw [henv] at ha
    exact answersOk_answered h a ha
  | false =>
    have hcount : asked (c :: cs) = asked cs := List.countP_cons_of_neg (by simp [hc])
    rw [hcount] at h
    refine ⟨nofun, fun a ha => h a ?_⟩
    simpa [Event.answersLeft, hc] using ha

/-- Every call succeeds: the script is carried out to its end. -/
theorem perform_ok (err : Option Err) {cs : List Call} {s : State} (h : s.AnswersOk (asked cs)) :
    perform err cs s = perform err [] (s.after cs) := by
  induction cs generalizing s with
  | nil => rw [State.after_nil]
  | cons c cs ih =>
    obtain ⟨hc, hcs⟩ := answersOk_cons h
    rw [perform, Call.run_ok hc, Run.done_andThen, ih hcs, State.after_cons]

/-- The calls `earlier` succeed and the next one fails. -/
theorem perform_fail (err : Option Err) {earlier later : List Call} {c : Call} {s : State} {e : ErrorValue} {rest : List Answer}
    (hc : c.event.asks = true) (h : s.env = List.replicate (asked earlier) .ok ++ .fail e :: rest) :
    perform err (earlier ++ c :: later) s =
      .stopped (.err (c.event.error e)) (((s.after earlier).missed e c.event).onGhost c.cut) := by
  have henv : (s.after earlier).env = .fail e :: rest := by
    simp only [State.after, h]
    exact List.drop_left' List.length_replicate
  rw [perform_append, perform_ok none (answersOk_of_env h), perform_nil, Run.done_andThen, perform,
    Call.run_fail hc (answer_of_env henv), Run.stopped_andThen]

/-! ## An accepted instruction with known answers -/

theorem runOf_ok {i : Instr} {s : State} {calls : List Call} (hs : script s.cfg s.hasCs i = .ofCalls calls)
    (hok : s.AnswersOk (asked calls)) : runOf i s = .done ((enter i s.accept).after calls) := by
  rw [runOf, hs]
  refine perform_ok none fun a ha => hok a ?_
  rwa [enter_env, State.accept_env] at ha

theorem runOf_fail {i : Instr} {s : State} {earlier later : List Call} {c : Call} {e : ErrorValue} {rest : List Answer}
    (hs : script s.cfg s.hasCs i = .ofCalls (earlier ++ c :: later)) (hc : c.event.asks = true)
    (henv : s.env = List.replicate (asked earlier) .ok ++ .fail e :: rest) :
    runOf i s = .stopped (.err (c.event.error e)) ((((enter i s.accept).after earlier).missed e c.event).onGhost c.cut) := by
  rw [runOf, hs, Script.run]
  exact perform_fail none hc (by simpa using henv)

/-- An operation on the handle that writes nothing on entry and hands nothing back. -/
structure OnHandle (i : Instr) : Prop where
  life : lifeNeeded i = .attached
  enter : ∀ s, enter i s = s
  back : ∀ s, handedBack s i = none
  backOnErr : ∀ s, handedBackOnError s i = none

theorem onHandle {i : Instr} (hlife : lifeNeeded i = .attached) (hrelease : i ≠ .release) : OnHandle i := by
  cases i with
  | attach bus pins | attachConfig bus pins => cases hlife
  | release => exact absurd rfl hrelease
  | _ => exact ⟨hlife, fun _ => rfl, fun _ => rfl, fun _ => rfl⟩

section
variable {i : Instr} {s : State} {e : ErrorValue} {rest : List Answer}

theorem OnHandle.accepts (hi : OnHandle i) (hr : s.Ready) (hlegal : i.wellFormed s.cfg = true) : Accepts s i :=
  ⟨hr.1, hr.2.trans hi.life.symm, hlegal⟩

/-- An operation on the handle whose calls all succeed (R186). -/
theorem OnHandle.exec_ok (hi : OnHandle i) {calls : List Call} (hr : s.Ready) (hlegal : i.wellFormed s.cfg = true)
    (hs : script s.cfg s.hasCs i = .ofCalls calls) (hok : s.AnswersOk (asked calls)) :
    exec i s = .next { s.succeeded (asked calls) (calls.map fun c => c.event.succeeding) with
      pins := pinsAfter calls s.pins, ghost := ghostAfter calls s.ghost } := by
  rw [exec_of_accepts (hi.accepts hr hlegal), answerOf, runOf_ok hs hok, hi.enter, hi.back]
  simp [Run.returned, State.returns, State.after, State.succeeded, hr.1]

/-- An operation on the handle with a call that fails after the calls `earlier` (R186, R188). -/
theorem OnHandle.exec_fail (hi : OnHandle i) {earlier later : List Call} {c : Call} (hr : s.Ready) (hlegal : i.wellFormed s.cfg = true)
    (hs : script s.cfg s.hasCs i = .ofCalls (earlier ++ c :: later)) (hc : c.event.asks = true)
    (henv : s.env = List.replicate (asked earlier) .ok ++ .fail e :: rest) :
    exec i s = .next { s.failed (asked earlier + 1) ((earlier.map fun c => c.event.succeeding) ++ [c.event.failing e]) (c.event.error e) with
      pins := (pinsAfter earlier s.pins).lost c.event, ghost := c.cut (ghostAfter earlier s.ghost) } := by
  rw [exec_of_accepts (hi.accepts hr hlegal), answerOf, runOf_fail hs hc henv, hi.enter, hi.backOnErr]
  simp [Run.returned, State.returns, State.after, State.failed, State.missed, State.onGhost, State.answered, hr.1]

end

/-! ## Operations that send one frame -/

/-- The calls of delays. -/
def delayCalls (times : List Nat) : List Call := times.map delayCall

section
variable {i : Instr} {cmd : Cmd} {times : Config → List Nat}

@[simp] theorem asked_append (a b : List Call) : asked (a ++ b) = asked a + asked b := List.countP_append
@[simp] theorem asked_delayCalls (times : List Nat) : asked (delayCalls times) = 0 := by
  simp [asked, delayCalls, List.countP_map, delayCall, Event.asks, Function.comp_def]

theorem events_delayCalls (times : List Nat) : ((delayCalls times).map fun c => c.event.succeeding) = times.map .delay := by
  rw [delayCalls, List.map_map]
  rfl

theorem foldl_delayCalls {α : Type} (f : α → Call → α) (hf : ∀ a n, f a (delayCall n) = a) (times : List Nat) (a : α) :
    (delayCalls times).foldl f a = a := by
  induction times with
  | nil => rfl
  | cons n ns ih =>
    rw [delayCalls, List.map_cons, List.foldl_cons, hf]
    exact ih

@[simp] theorem pinsAfter_append_delayCalls (cs : List Call) (times : List Nat) (ps : Pins) :
    pinsAfter (cs ++ delayCalls times) ps = pinsAfter cs ps := by
  rw [pinsAfter, List.foldl_append]
  exact foldl_delayCalls (fun (ps : Pins) c => ps.did c.event) (fun _ _ => rfl) times _

@[simp] theorem ghostAfter_append_delayCalls (cs : List Call) (times : List Nat) (g : Ghost) :
    ghostAfter (cs ++ delayCalls times) g = ghostAfter cs g := by
  rw [ghostAfter, List.foldl_append]
  exact foldl_delayCalls (fun (g : Ghost) c => c.after g) (fun _ _ => rfl) times _

/-- The outcomes of an operation whose script is one opcode and delays (R148, R151). -/
theorem sendsOneOpcode (times : Config → List Nat) {ghost inDoubt : Ghost → Ghost} (hi : OnHandle i) (hlegal : ∀ cfg, i.wellFormed cfg = true)
    (hs : ∀ cfg hasCs, script cfg hasCs i = .ofCalls (frameCalls cfg cmd none ++ delayCalls (times cfg)))
    (hghost : ∀ g : Ghost, (g.opcodeReceived cmd).frameReceived cmd [] = ghost g) (hdoubt : ∀ g : Ghost, g.opcodeInDoubt cmd = inDoubt g) :
    SendsOneOpcode i cmd (fun cfg => (times cfg).map .delay) ghost inDoubt := by
  intro s hr
  refine ⟨fun hok => ?_, fun e rest henv => ?_, fun e rest henv => ?_⟩
  · have hcount : asked (frameCalls s.cfg cmd none ++ delayCalls (times s.cfg)) = 2 := by rw [asked_append, asked_delayCalls]; rfl
    rw [hi.exec_ok hr (hlegal _) (hs _ _) (hcount ▸ hok), hcount, List.map_append, events_delayCalls, pinsAfter_append_delayCalls,
      ghostAfter_append_delayCalls, ← hghost]
    rfl
  · exact hi.exec_fail (earlier := []) hr (hlegal _) (hs _ _) rfl henv
  · rw [← hdoubt]
    exact hi.exec_fail (earlier := [_]) hr (hlegal _) (hs _ _) rfl henv

end

/-! ### The power states, as the tables of R34 have them -/

theorem afterSoftReset_eq (p : Power) : p.afterSoftReset = if p = .poweredReset then .registersDefault else .unspecified := by
  cases p <;> rfl

theorem afterSleepOut_eq (p : Power) : p.afterSleepOut = if p = .registersDefault ∨ p = .sleeping then .awake else .unspecified := by
  cases p <;> rfl

theorem afterSleepIn_eq (p : Power) : p.afterSleepIn = if p = .awake ∨ p = .displaying then .sleeping else .unspecified := by
  cases p <;> rfl

theorem afterDisplayOn_eq (p : Power) : p.afterDisplayOn = if p = .awake ∨ p = .displaying then .displaying else .unspecified := by
  cases p <;> rfl

section
variable {i : Instr} (times : Config → List Nat) (hi : OnHandle i) (hlegal : ∀ cfg, i.wellFormed cfg = true)
include hi hlegal

/-- What SWRESET does to the controller, complete or in doubt (R34, R134, R151). -/
theorem sendsSwreset (hs : ∀ cfg hasCs, script cfg hasCs i = .ofCalls (frameCalls cfg .swreset none ++ delayCalls (times cfg))) :
    SendsOneOpcode i .swreset (fun cfg => (times cfg).map .delay)
      (fun g => Ghost.forget (if g.power = .poweredReset then .registersDefault else .unspecified)) (fun _ => Ghost.forget .unspecified) :=
  sendsOneOpcode times hi hlegal hs (fun g => congrArg Ghost.forget (afterSoftReset_eq g.power)) fun _ => rfl

/-- What SLPOUT does to the controller (R34, R135, R152). -/
theorem sendsSlpout (hs : ∀ cfg hasCs, script cfg hasCs i = .ofCalls (frameCalls cfg .slpout none ++ delayCalls (times cfg))) :
    SendsOneOpcode i .slpout (fun cfg => (times cfg).map .delay)
      (fun g => { g with power := if g.power = .registersDefault ∨ g.power = .sleeping then .awake else .unspecified })
      (fun g => { g with power := .unspecified }) :=
  sendsOneOpcode times hi hlegal hs (fun g => by rw [← afterSleepOut_eq]; rfl) fun _ => rfl

/-- What SLPIN does to the controller (R34, R136, R152). -/
theorem sendsSlpin (hs : ∀ cfg hasCs, script cfg hasCs i = .ofCalls (frameCalls cfg .slpin none ++ delayCalls (times cfg))) :
    SendsOneOpcode i .slpin (fun cfg => (times cfg).map .delay)
      (fun g => { g with power := if g.power = .awake ∨ g.power = .displaying then .sleeping else .unspecified })
      (fun g => { g with power := .unspecified }) :=
  sendsOneOpcode times hi hlegal hs (fun g => by rw [← afterSleepIn_eq]; rfl) fun _ => rfl

/-- What DISPON does to the controller (R34, R139). -/
theorem sendsDispon (hs : ∀ cfg hasCs, script cfg hasCs i = .ofCalls (frameCalls cfg .dispon none)) :
    SendsOneOpcode i .dispon (fun _ => [])
      (fun g => { g with power := if g.power = .awake ∨ g.power = .displaying then .displaying else .unspecified,
                         ramwrOpen := .known false })
      (fun g => { g with power := .unspecified, ramwrOpen := .unknown }) :=
  sendsOneOpcode (fun _ => []) hi hlegal hs (fun g => by rw [← afterDisplayOn_eq]; rfl) fun _ => rfl

/-- A mode command with no delay whose effects are those its opcode has by definition (R140 to R146). -/
theorem sendsMode {cmd : Cmd} {ghost inDoubt : Ghost → Ghost} (hs : ∀ cfg hasCs, script cfg hasCs i = .ofCalls (frameCalls cfg cmd none))
    (hghost : ∀ g : Ghost, (g.opcodeReceived cmd).frameReceived cmd [] = ghost g) (hdoubt : ∀ g : Ghost, g.opcodeInDoubt cmd = inDoubt g) :
    SendsOneOpcode i cmd (fun _ => []) ghost inDoubt :=
  sendsOneOpcode (fun _ => []) hi hlegal (fun cfg hasCs => (hs cfg hasCs).trans (by simp [delayCalls])) hghost hdoubt

end

/-- Settles O30: one SWRESET opcode, then the delay. -/
theorem softResetOutcomes : Obligations.SoftResetOutcomes :=
  ⟨fun _ _ hd hs => decode_req_default_selector hd (op := .softReset) hs, rfl,
    sendsSwreset (fun cfg => [cfg.tSwreset]) (onHandle rfl nofun) (fun _ => rfl) fun _ _ => rfl⟩

/-- Settles O31: one opcode each, then the delay. -/
theorem sleepOutcomes : Obligations.SleepOutcomes :=
  ⟨fun _ _ hd hs => decode_req_default_selector hd (op := .sleepOut) hs, fun _ _ hd hs => decode_req_default_selector hd (op := .sleepIn) hs,
    rfl, rfl, sendsSlpout (fun cfg => [cfg.tSlpout]) (onHandle rfl nofun) (fun _ => rfl) fun _ _ => rfl,
    sendsSlpin (fun cfg => [cfg.tSlpin]) (onHandle rfl nofun) (fun _ => rfl) fun _ _ => rfl⟩

/-- Settles O32: one opcode each, with the effect its command has. -/
theorem modeCommandOutcomes : Obligations.ModeCommandOutcomes := by
  refine ⟨fun cfg r hd => ⟨decode_req_default_selector hd (op := .displayOn), decode_req_default_selector hd (op := .displayOff),
    decode_req_default_selector hd (op := .inversionOn), decode_req_default_selector hd (op := .inversionOff),
    decode_req_default_selector hd (op := .partialDisplayMode), decode_req_default_selector hd (op := .normalMode),
    decode_req_default_selector hd (op := .idleOn), decode_req_default_selector hd (op := .idleOff)⟩, ?_, ?_, ?_, ?_, ?_, ?_, ?_, ?_⟩
  · exact sendsDispon (onHandle rfl nofun) (fun _ => rfl) fun _ _ => rfl
  all_goals
    refine sendsMode (onHandle rfl ?_) (fun _ => rfl) (fun _ _ => rfl) (fun _ => rfl) (fun _ => rfl)
    exact nofun

/-- Settles O40: one opcode each, with the effect its command has. -/
theorem opcodeFramesComplete : Obligations.OpcodeFramesComplete := by
  refine ⟨?_, ?_, ?_, ?_, ?_, ?_, ?_, ?_, ?_, ?_, ?_⟩
  · exact sendsSwreset (fun _ => []) (onHandle rfl nofun) (fun _ => rfl) fun _ _ => rfl
  · exact sendsSlpout (fun _ => []) (onHandle rfl nofun) (fun _ => rfl) fun _ _ => rfl
  · exact sendsSlpin (fun _ => []) (onHandle rfl nofun) (fun _ => rfl) fun _ _ => rfl
  · exact sendsDispon (onHandle rfl nofun) (fun _ => rfl) fun _ _ => rfl
  all_goals
    refine sendsMode (onHandle rfl ?_) (fun _ => rfl) (fun _ _ => rfl) (fun _ => rfl) (fun _ => rfl)
    exact nofun

/-! ## Operations that send one frame with parameters -/

theorem frameCalls_of_dataPhase {cfg : Config} {cmd : Cmd} {bytes : List Byte} (h : hasDataPhase cfg (some bytes) = true) :
    frameCalls cfg cmd (some bytes) =
      [⟨.pin .dc cfg.dcCmdLevel .ok, id, id⟩, ⟨.bus [opcode cfg cmd] .ok, Ghost.opcodeInDoubt cmd, Ghost.opcodeReceived cmd⟩,
       ⟨.pin .dc (dcDataLevel cfg) .ok, Ghost.frameCut cmd, id⟩, ⟨.bus bytes .ok, Ghost.frameCut cmd, Ghost.frameReceived cmd bytes⟩] :=
  if_pos h

section
variable {i : Instr} {cmd : Cmd}

/-- An operation whose script is one frame with parameters and delays, when its four calls succeed (R100). -/
theorem OnHandle.exec_frame_ok (hi : OnHandle i) {bytes : List Byte} {times : List Nat} {s : State} (hr : s.Ready)
    (hlegal : i.wellFormed s.cfg = true) (hb : hasDataPhase s.cfg (some bytes) = true)
    (hs : script s.cfg s.hasCs i = .ofCalls (frameCalls s.cfg cmd (some bytes) ++ delayCalls times)) (hok : s.AnswersOk 4) :
    exec i s = .next { s.succeeded 4 (frameEvents s.cfg cmd bytes ++ times.map .delay) with
      pins := { s.pins with dc := .known (dcDataLevel s.cfg) }, ghost := (s.ghost.opcodeReceived cmd).frameReceived cmd bytes } := by
  rw [frameCalls_of_dataPhase hb] at hs
  have hcount := asked_append
    [⟨.pin .dc s.cfg.dcCmdLevel .ok, id, id⟩, ⟨.bus [opcode s.cfg cmd] .ok, Ghost.opcodeInDoubt cmd, Ghost.opcodeReceived cmd⟩,
     ⟨.pin .dc (dcDataLevel s.cfg) .ok, Ghost.frameCut cmd, id⟩, ⟨.bus bytes .ok, Ghost.frameCut cmd, Ghost.frameReceived cmd bytes⟩]
    (delayCalls times)
  rw [asked_delayCalls] at hcount
  rw [hi.exec_ok hr hlegal hs (hcount ▸ hok), hcount, List.map_append, events_delayCalls, pinsAfter_append_delayCalls,
    ghostAfter_append_delayCalls]
  rfl

theorem sendsOneFrame {bytes : Config → List Byte} {ghost : Config → Ghost → Ghost} (hi : OnHandle i)
    (hlegal : ∀ cfg, i.wellFormed cfg = true) (hb : ∀ cfg, hasDataPhase cfg (some (bytes cfg)) = true)
    (hs : ∀ cfg hasCs, script cfg hasCs i = .ofCalls (frameCalls cfg cmd (some (bytes cfg))))
    (hghost : ∀ cfg (g : Ghost), (g.opcodeReceived cmd).frameReceived cmd (bytes cfg) = ghost cfg g) :
    SendsOneFrame i cmd bytes [] ghost := by
  intro s hr hok
  rw [← hghost]
  exact hi.exec_frame_ok (times := []) hr (hlegal _) (hb _) (by rw [hs]; simp [delayCalls]) hok

/-- A frame with parameters cut at each of its four calls: nothing sent, the opcode in doubt, the opcode sent, the bytes in doubt. -/
theorem cutsOneFrame {bytes : Config → List Byte} {cut : Ghost → Ghost} (times : Config → List Nat) (hi : OnHandle i)
    (hb : ∀ cfg, hasDataPhase cfg (some (bytes cfg)) = true)
    (hs : ∀ cfg hasCs, script cfg hasCs i = .ofCalls (frameCalls cfg cmd (some (bytes cfg)) ++ delayCalls (times cfg)))
    (hdoubt : ∀ g : Ghost, g.opcodeInDoubt cmd = { cut g with ramwrOpen := .unknown })
    (hcut : ∀ g : Ghost, (g.opcodeReceived cmd).frameCut cmd = { cut g with ramwrOpen := .known false }) :
    CutsOneFrame i cmd bytes cut := by
  intro s e rest hr hlegal
  have hs' := hs s.cfg s.hasCs
  rw [frameCalls_of_dataPhase (hb _)] at hs'
  rw [← hdoubt, ← hcut]
  exact ⟨hi.exec_fail (earlier := []) hr hlegal hs' rfl, hi.exec_fail (earlier := [_]) hr hlegal hs' rfl,
    hi.exec_fail (earlier := [_, _]) hr hlegal hs' rfl, hi.exec_fail (earlier := [_, _, _]) hr hlegal hs' rfl⟩

end

theorem wellFormed_colorMode {cfg : Config} {format : Byte} (h : format ∈ cfg.colmodSet) :
    (Instr.colorMode format).wellFormed cfg = true := by simpa [Instr.wellFormed, legalFormat] using h

/-- A pixel format outside the set is refused by name, in every state (R195; log 31). -/
theorem exec_illegalFormat {s : State} {format : Byte} (h : format ∉ s.cfg.colmodSet) :
    exec (.colorMode format) s = .refused (.pixelFormat format) ∧ exec (.colmod format) s = .refused (.pixelFormat format) := by
  have hlegal : legalFormat s.cfg format = false := by simpa [legalFormat] using h
  simp [exec_eq_operation, Instr.wellFormed, hlegal, illegalOperand]

/-- Settles O33: one frame each, after whose last byte the register holds it. -/
theorem configurationRegistersAreWritten : Obligations.ConfigurationRegistersAreWritten := by
  refine ⟨rfl, fun s format hr hok hformat => ?_, fun s format hformat => (exec_illegalFormat hformat).1, fun o => ?_⟩
  · have hi : OnHandle (.colorMode format) := onHandle rfl nofun
    exact hi.exec_frame_ok (times := [s.cfg.tColmod]) hr (wellFormed_colorMode hformat) rfl rfl hok
  · exact sendsOneFrame (onHandle rfl nofun) (fun _ => rfl) (fun _ => rfl) (fun _ _ => rfl) fun _ _ => rfl

/-- Settles O34: one frame with parameters each. -/
theorem cutFrameLeavesItsRegisterUnknown : Obligations.CutFrameLeavesItsRegisterUnknown := by
  refine ⟨fun format => ?_, fun o => ?_, fun format => ?_, fun o => ?_, fun start last => ?_, fun start last => ?_⟩
  · exact cutsOneFrame (fun cfg => [cfg.tColmod]) (onHandle rfl nofun) (fun _ => rfl) (fun _ _ => rfl) (fun _ => rfl) fun _ => rfl
  all_goals
    refine cutsOneFrame (fun _ => []) (onHandle rfl ?_) (fun _ => rfl) (fun _ _ => rfl) (fun _ => rfl) fun _ => rfl
    exact nofun

/-- Settles O41: one frame each; the framer compares nothing, and the pixel format is tested before it. -/
theorem parameterFramesComplete : Obligations.ParameterFramesComplete := by
  refine ⟨fun start last => ?_, fun start last => ?_, fun o => ?_, fun s format hr hok hformat => ?_,
    fun s format hformat => (exec_illegalFormat hformat).2⟩
  · exact sendsOneFrame (onHandle rfl nofun) (fun _ => rfl) (fun _ => rfl) (fun _ _ => rfl)
      fun _ => frameReceived_caset_windowBytes start last
  · exact sendsOneFrame (onHandle rfl nofun) (fun _ => rfl) (fun _ => rfl) (fun _ _ => rfl)
      fun _ => frameReceived_raset_windowBytes start last
  · exact sendsOneFrame (onHandle rfl nofun) (fun _ => rfl) (fun _ => rfl) (fun _ _ => rfl) fun _ _ => rfl
  · have hi : OnHandle (.colmod format) := onHandle rfl nofun
    rw [← List.append_nil (frameEvents _ _ _)]
    exact hi.exec_frame_ok (times := []) hr (wellFormed_colorMode hformat) rfl rfl hok

/-! ## The reset pulse -/

/-- Settles O29: the pulse's three pin calls, with a delay after each. -/
theorem hardResetOutcomes : Obligations.HardResetOutcomes := by
  refine ⟨fun cfg r hd hs => decode_req_default_selector hd (op := .hardReset) hs, rfl, rfl, rfl, fun s hr => ⟨fun hok => ?_, fun e rest henv => ?_,
    fun e rest henv => ?_, fun e rest henv => ?_⟩⟩
  all_goals have hi : OnHandle .hardReset := onHandle rfl nofun
  all_goals have hs : script s.cfg s.hasCs .hardReset = .ofCalls (resetCalls s.cfg) := rfl
  · exact hi.exec_ok hr rfl hs hok
  · exact hi.exec_fail (earlier := []) hr rfl hs rfl henv
  · exact hi.exec_fail (earlier := [_, _]) hr rfl hs rfl henv
  · exact hi.exec_fail (earlier := [_, _, _, _]) hr rfl hs rfl henv

/-! ## The bring-up -/

theorem ghostAfter_append (a b : List Call) (g : Ghost) : ghostAfter (a ++ b) g = ghostAfter b (ghostAfter a g) := List.foldl_append

theorem ghostAfter_frameCalls (cfg : Config) (cmd : Cmd) (params : Option (List Byte)) (g : Ghost) :
    ghostAfter (frameCalls cfg cmd params) g = (g.opcodeReceived cmd).frameReceived cmd (params.getD []) := by
  unfold frameCalls
  split <;> rfl

theorem ghostAfter_caset (cfg : Config) (start last : Word) (g : Ghost) :
    ghostAfter (axisCalls cfg .caset start last) g = { g with xs := .known start, xe := .known last, ramwrOpen := .known false } :=
  (ghostAfter_frameCalls ..).trans (frameReceived_caset_windowBytes start last g)

theorem ghostAfter_raset (cfg : Config) (start last : Word) (g : Ghost) :
    ghostAfter (axisCalls cfg .raset start last) g = { g with ys := .known start, ye := .known last, ramwrOpen := .known false } :=
  (ghostAfter_frameCalls ..).trans (frameReceived_raset_windowBytes start last g)

/-- What the controller makes of the bring-up, whatever it was before (R147, R213). -/
theorem ghostAfter_bringUpCalls (cfg : Config) (g : Ghost) :
    ghostAfter (bringUpCalls cfg) g =
      { power := .displaying, region := .known .normal, inversion := .known .on, idle := .unknown,
        xs := .known 0, xe := .known cfg.initColEnd, ys := .known 0, ye := .known cfg.initRowEnd,
        madctl := .known cfg.initMadctl, colmod := .known cfg.initColmod, wptr := .unknown, ramwrOpen := .known false, ram := [] } := by
  simp only [bringUpCalls, ghostAfter_append, ghostAfter_frameCalls, ghostAfter_caset, ghostAfter_raset]
  rfl

theorem asked_frameCalls (cfg : Config) (cmd : Cmd) (params : Option (List Byte)) :
    asked (frameCalls cfg cmd params) = if hasDataPhase cfg params then 4 else 2 := by
  unfold frameCalls
  split <;> rfl

theorem pinsAfter_append (a b : List Call) (ps : Pins) : pinsAfter (a ++ b) ps = pinsAfter b (pinsAfter a ps) := List.foldl_append

theorem pinsAfter_frameCalls (cfg : Config) (cmd : Cmd) (params : Option (List Byte)) (ps : Pins) :
    pinsAfter (frameCalls cfg cmd params) ps =
      { ps with dc := .known (if hasDataPhase cfg params then dcDataLevel cfg else cfg.dcCmdLevel) } := by
  unfold frameCalls
  split <;> rfl

/-- The bring-up makes 29 pin and bus calls (R147). -/
theorem asked_bringUpCalls (cfg : Config) : asked (bringUpCalls cfg) = 29 := by
  simp only [bringUpCalls, axisCalls, asked_append, asked_frameCalls]
  rfl

theorem pinsAfter_bringUpCalls (cfg : Config) (ps : Pins) :
    pinsAfter (bringUpCalls cfg) ps = { ps with rst := .known .high, dc := .known cfg.dcCmdLevel } := by
  simp only [bringUpCalls, axisCalls, pinsAfter_append, pinsAfter_frameCalls]
  rfl

theorem bringUpCalls_succeeding (cfg : Config) : ((bringUpCalls cfg).map fun c => c.event.succeeding) = initializeEvents cfg := rfl

/-- Settles O38: the bring-up's calls in order, and what the controller makes of each. -/
theorem initializeBringsTheDisplayUp : Obligations.InitializeBringsTheDisplayUp := by
  refine ⟨rfl, fun s hr hok _ => ?_⟩
  have hi : OnHandle .initializePanel := onHandle rfl nofun
  have hs : script s.cfg s.hasCs .initializePanel = .ofCalls (bringUpCalls s.cfg) := rfl
  rw [hi.exec_ok hr rfl hs (by rwa [asked_bringUpCalls]), asked_bringUpCalls, bringUpCalls_succeeding, pinsAfter_bringUpCalls,
    ghostAfter_bringUpCalls]

/-- Settles O39: the bring-up's 35 events under the defaults, read as a receiver reads them. -/
theorem initializeWireFrames : Obligations.InitializeWireFrames := by
  intro s cut hr hok hcfg
  have hcfgOk : s.cfg.Ok := hcfg ▸ by decide
  refine ⟨_, initializeEvents s.cfg, initializeBringsTheDisplayUp.2 s hr hok hcfgOk, rfl, ?_⟩
  rw [hcfg, initializeBringsTheDisplayUp.1]
  rfl

/-! ## The lifecycle operations -/

/-- Settles O35: the resources are taken on entry; the script is one chip-select call or none. -/
theorem attachOutcomes : Obligations.AttachOutcomes := by
  refine ⟨fun cfg r hd hs => decode_req_default_selector hd (op := .attach) hs, fun s bus pins hu => ?_⟩
  have ha : Accepts s (.attach bus pins) := ⟨hu.1, hu.2, rfl⟩
  have hcalls (made : Bool) (h : (pins.cs.isSome && s.cfg.csLowOnAttach) = made) :
      script s.cfg s.hasCs (.attach bus pins) = .ofCalls (csCalls made .low) := by rw [← h]; rfl
  refine ⟨fun hno => ?_, fun hcs hlow hok => ?_, fun hcs hlow e rest henv => ?_⟩
  · have hmade : (pins.cs.isSome && s.cfg.csLowOnAttach) = false := by
      rcases hno with h | h <;> simp [h]
    rw [exec_of_accepts ha, answerOf, runOf_ok (hcalls false hmade) (fun a ha => by simp [asked, csCalls] at ha)]
    simp [Run.returned, State.returns, State.after, State.succeeded, csCalls, asked, enter, State.own, pinsAfter, ghostAfter, handedBack, hu.1]
  · rw [exec_of_accepts ha, answerOf, runOf_ok (hcalls true (by simp [Option.isSome_iff_ne_none.2 hcs, hlow])) hok]
    simp [Run.returned, State.returns, State.after, State.succeeded, csCalls, asked, enter, State.own, pinsAfter, ghostAfter, handedBack, hu.1,
      Event.asks, Event.succeeding, Pins.did, Pins.set]
  · have hs := hcalls true (by simp [Option.isSome_iff_ne_none.2 hcs, hlow])
    rw [exec_of_accepts ha, answerOf, runOf_fail (earlier := []) hs rfl henv]
    simp [Run.returned, State.returns, State.after_nil, State.missed, State.failed, State.answered, State.onGhost, enter, State.own, Pins.lost,
      Pins.set, Event.failing, Event.error, handedBackOnError, hu.1]

/-- Settles O36: the two instructions have one meaning; the resources are taken on entry. -/
theorem attachConfigIsAttach : Obligations.AttachConfigIsAttach := by
  refine ⟨fun cfg r hd hs => decode_req_default_selector hd (op := .attachConfig) hs, fun s bus config => rfl, fun s bus config hu _ => ?_⟩
  exact ⟨_, exec_of_accepts ⟨hu.1, hu.2, rfl⟩, by rw [answerOf_life, runOf_life]; rfl, by rw [answerOf_res, runOf_res]; rfl⟩

/-- Settles O37: the handle is consumed on entry; the script is one chip-select call or none. -/
theorem releaseOutcomes : Obligations.ReleaseOutcomes := by
  intro s hr
  have ha : Accepts s .release := ⟨hr.1, hr.2, rfl⟩
  have hcalls (made : Bool) (h : s.hasCs = made) : script s.cfg s.hasCs .release = .ofCalls (csCalls made .high) := by rw [← h]; rfl
  refine ⟨fun hcs => ?_, fun hcs hok => ?_, fun hcs e rest henv => ⟨handedBackOnError s .release, ?_, ?_⟩⟩
  · rw [exec_of_accepts ha, answerOf, runOf_ok (hcalls false hcs) (fun a ha => by simp [asked, csCalls] at ha)]
    simp [Run.returned, State.returns, State.after, State.succeeded, csCalls, asked, enter, State.disown, pinsAfter, ghostAfter, handedBack, hr.1]
    rfl
  · rw [exec_of_accepts ha, answerOf, runOf_ok (hcalls true hcs) hok]
    simp [Run.returned, State.returns, State.after, State.succeeded, csCalls, asked, enter, State.disown, pinsAfter, ghostAfter, handedBack,
      Event.asks, Event.succeeding, Pins.did, Pins.set, hr.1]
    rfl
  · rw [exec_of_accepts ha, answerOf, runOf_fail (earlier := []) (hcalls true hcs) rfl henv]
    simp [Run.returned, State.returns, State.after_nil, State.missed, State.failed, State.answered, State.onGhost, enter, State.disown, Pins.lost,
      Pins.set, Event.failing, Event.error, hr.1]
    rfl
  · by_cases h : Config.releaseReturnsOnError = true
    · exact .inl (if_pos h)
    · exact .inr (if_neg h)

end Sys2Proof.Machine

/-! What every way an operation can end leaves of the controller: a predicate that each frame, each pixel and each reset keeps is kept by
every instruction. -/

namespace Sys2Proof.Machine

/-! ## Predicates on the controller, along a list of calls -/

/-- `P` holds of the controller wherever the calls are cut short, and at their end. -/
def GhostAlways (P : Ghost → Prop) : List Call → Ghost → Prop
  | [], g => P g
  | c :: cs, g => P (c.cut g) ∧ GhostAlways P cs (c.after g)

theorem Call.run_ghost (c : Call) (s : State) :
    (∃ t, c.run s = .done t ∧ t.ghost = c.after s.ghost) ∨ ∃ w t, c.run s = .stopped w t ∧ t.ghost = c.cut s.ghost := by
  rcases c.run_cases s with ⟨-, h⟩ | ⟨-, e, -, h⟩ | ⟨-, -, h⟩
  · exact .inl ⟨_, h, by simp⟩
  · exact .inr ⟨_, _, h, rfl⟩
  · exact .inr ⟨_, _, h, rfl⟩

theorem perform_ghostAlways {P : Ghost → Prop} {cs : List Call} (err : Option Err) {s : State} (h : GhostAlways P cs s.ghost) :
    P (perform err cs s).state.ghost := by
  induction cs generalizing s with
  | nil => cases err <;> exact h
  | cons c cs ih =>
    obtain ⟨hcut, hrest⟩ := h
    rw [perform]
    rcases c.run_ghost s with ⟨t, hr, hg⟩ | ⟨w, t, hr, hg⟩ <;> rw [hr]
    · exact ih (hg ▸ hrest)
    · exact (congrArg P hg).mpr hcut

/-- From a controller that meets `P`, the calls keep it, whatever way they end. -/
def Maintains (P : Ghost → Prop) (cs : List Call) : Prop := ∀ g, P g → GhostAlways P cs g

section
variable {P : Ghost → Prop} {a b : List Call} {cfg : Config}

theorem maintains_nil : Maintains P [] := fun _ h => h

theorem GhostAlways.append {g : Ghost} (ha : GhostAlways P a g) (hb : Maintains P b) : GhostAlways P (a ++ b) g := by
  induction a generalizing g with
  | nil => exact hb g ha
  | cons c cs ih => exact ⟨ha.1, ih ha.2⟩

theorem Maintains.append (ha : Maintains P a) (hb : Maintains P b) : Maintains P (a ++ b) := fun g hg => (ha g hg).append hb

theorem maintains_flatMap {α : Type} {f : α → List Call} (h : ∀ x, Maintains P (f x)) (xs : List α) : Maintains P (xs.flatMap f) := by
  induction xs with
  | nil => exact maintains_nil
  | cons x xs ih => exact (h x).append ih

theorem GhostAlways.map_losing {g : Ghost} (hP : ∀ g, P g → P g.addressingInDoubt) (h : GhostAlways P a g) :
    GhostAlways P (a.map Call.losing) g := by
  induction a generalizing g with
  | nil => exact h
  | cons c cs ih => exact ⟨hP _ h.1, ih h.2⟩

/-- A pixel write keeps what losing the addressing state keeps. -/
theorem GhostAlways.losing {g : Ghost} (hP : ∀ g, P g → P g.addressingInDoubt) (h : GhostAlways P a g) :
    GhostAlways P (losingCalls a) g := by
  cases a with
  | nil => exact h
  | cons c cs => exact ⟨h.1, h.2.map_losing hP⟩

theorem Maintains.losing (hP : ∀ g, P g → P g.addressingInDoubt) (h : Maintains P a) : Maintains P (losingCalls a) :=
  fun g hg => (h g hg).losing hP

theorem maintains_delay (n : Nat) : Maintains P [delayCall n] := fun _ hg => ⟨hg, hg⟩

/-- A frame keeps `P` if an opcode in doubt, a frame cut after its opcode and a complete frame do. -/
theorem maintains_frame {cmd : Cmd} {params : Option (List Byte)} (hdoubt : ∀ g, P g → P (g.opcodeInDoubt cmd))
    (hcut : ∀ g, P g → P ((g.opcodeReceived cmd).frameCut cmd))
    (hdone : ∀ g, P g → P ((g.opcodeReceived cmd).frameReceived cmd (params.getD []))) : Maintains P (frameCalls cfg cmd params) := by
  intro g hg
  unfold frameCalls
  split
  · exact ⟨hg, hdoubt g hg, hcut g hg, hcut g hg, hdone g hg⟩
  · exact ⟨hg, hdoubt g hg, hdone g hg⟩

theorem maintains_pixel (hdoubt : ∀ g, P g → P g.pixelInDoubt) (hdone : ∀ bytes g, P g → P (g.pixelReceived bytes)) (color : Word) :
    Maintains P (pixelCalls cfg color) := fun g hg => ⟨hg, hdoubt g hg, hdone _ g hg⟩

theorem maintains_reset (hcut : P (Ghost.forget .unspecified)) (hdone : P (Ghost.forget .poweredReset)) :
    Maintains P (resetCalls cfg) := fun _ _ => ⟨hcut, hcut, hcut, hcut, hcut, hdone, hdone⟩

theorem maintains_cs (made : Bool) (l : Level) : Maintains P (csCalls made l) := by
  intro g hg
  cases made with
  | false => exact hg
  | true => exact ⟨hg, hg⟩

theorem maintains_window {colStart rowStart colEnd rowEnd : Word} (hcol : colStart ≤ colEnd → Maintains P (axisCalls cfg .caset colStart colEnd))
    (hrow : rowStart ≤ rowEnd → Maintains P (axisCalls cfg .raset rowStart rowEnd)) {rest : List Call} (hrest : Maintains P rest) :
    Maintains P (windowScript cfg colStart rowStart colEnd rowEnd rest).calls := by
  unfold windowScript
  split
  · exact maintains_nil
  next hc =>
    split
    · exact hcol (BitVec.not_lt.1 hc)
    next hr => exact ((hcol (BitVec.not_lt.1 hc)).append (hrow (BitVec.not_lt.1 hr))).append hrest

end

/-! ## The frames instructions send -/

/-- The parameters a frame of the instruction may carry: window coordinates that meet `axis`, a pixel format that is legal or the
bring-up's, an orientation byte or the bring-up's (R147, R79, R195). -/
def Sent (cfg : Config) (axis : Word → Word → Prop) (cmd : Cmd) (params : Option (List Byte)) : Prop :=
  match cmd with
  | .caset | .raset => ∃ start last, axis start last ∧ params = some (windowBytes start last)
  | .colmod => ∃ format, (legalFormat cfg format = true ∨ format = cfg.initColmod) ∧ params = some [format]
  | .madctl => ∃ byte, ((∃ o, byte = encodeMadctl cfg.madctlBit o) ∨ byte = cfg.initMadctl) ∧ params = some [byte]
  | _ => True

/-- What the frames, the pixels, the resets and a lost addressing state keep is kept by every instruction. -/
theorem script_maintains {P : Ghost → Prop} {cfg : Config} {axis : Word → Word → Prop} {i : Instr} (hasCs : Bool)
    (hlegal : i.wellFormed cfg = true) (haxis : ∀ start last, start ≤ last ∨ i = .caset start last ∨ i = .raset start last → axis start last)
    (hframe : ∀ cmd params, Sent cfg axis cmd params → Maintains P (frameCalls cfg cmd params)) (hpixel : ∀ color, Maintains P (pixelCalls cfg color))
    (hreset : Maintains P (resetCalls cfg)) (hloses : ∀ g, P g → P g.addressingInDoubt) : Maintains P (script cfg hasCs i).calls := by
  have hcol {start last : Word} (h : start ≤ last) : Maintains P (axisCalls cfg .caset start last) :=
    hframe _ _ ⟨start, last, haxis _ _ (.inl h), rfl⟩
  have hrow {start last : Word} (h : start ≤ last) : Maintains P (axisCalls cfg .raset start last) :=
    hframe _ _ ⟨start, last, haxis _ _ (.inl h), rfl⟩
  have hpixels (colors : List Word) := maintains_flatMap (P := P) (f := pixelCalls cfg) hpixel colors
  cases i with
  | setColumnAddress start last =>
    simp only [script]
    split
    · exact maintains_nil
    next h => exact hcol (BitVec.not_lt.1 h)
  | setRowAddress start last =>
    simp only [script]
    split
    · exact maintains_nil
    next h => exact hrow (BitVec.not_lt.1 h)
  | setAddressWindow colStart rowStart colEnd rowEnd => exact maintains_window hcol hrow maintains_nil
  | writeSinglePixel x y color => exact (maintains_window hcol hrow ((hframe .ramwr none trivial).append (hpixel color))).losing hloses
  | writePixelStream colStart rowStart colEnd rowEnd colors =>
    exact (maintains_window hcol hrow ((hframe .ramwr (some []) trivial).append (hpixels colors))).losing hloses
  | ramwr colors => exact ((hframe .ramwr none trivial).append (hpixels colors)).losing hloses
  | hardReset => exact hreset
  | softReset => exact (hframe .swreset none trivial).append (maintains_delay _)
  | sleepOut => exact (hframe .slpout none trivial).append (maintains_delay _)
  | sleepIn => exact (hframe .slpin none trivial).append (maintains_delay _)
  | colorMode format => exact (hframe .colmod _ ⟨format, .inl hlegal, rfl⟩).append (maintains_delay _)
  | colmod format => exact hframe .colmod _ ⟨format, .inl hlegal, rfl⟩
  | memoryAccessControl o | madctl o => exact hframe .madctl _ ⟨_, .inl ⟨o, rfl⟩, rfl⟩
  | initializePanel =>
    exact ((((((((((hreset.append (hframe .swreset none trivial)).append (maintains_delay _)).append (hframe .slpout none trivial)).append
      (maintains_delay _)).append (hframe .colmod _ ⟨_, .inr rfl, rfl⟩)).append (maintains_delay _)).append
      (hframe .madctl _ ⟨_, .inr rfl, rfl⟩)).append ((hcol (zero_le_word _)).append (hrow (zero_le_word _)))).append
      (hframe .invon none trivial)).append (hframe .noron none trivial)).append (hframe .dispon none trivial)
  | attach bus pins | attachConfig bus pins | release => exact maintains_cs _ _
  | caset start last => exact hframe .caset _ ⟨start, last, haxis _ _ (.inr (.inl rfl)), rfl⟩
  | raset start last => exact hframe .raset _ ⟨start, last, haxis _ _ (.inr (.inr rfl)), rfl⟩
  | _ => exact hframe _ none trivial

/-! ## The invariant -/

/-- The controller's part of the invariant. -/
structure Ghost.Inv (cfg : Config) (g : Ghost) : Prop where
  memory : g.ram.wf
  stream : g.streamReady = true
  format : g.colmod.meets (legalFormat cfg) = true
  orientation : g.madctl.meets (fun b => (decodeMadctl cfg.madctlBit b).isSome) = true

section
variable {cfg : Config} {g : Ghost}

theorem streamReady_of_not_open (h : g.ramwrOpen ≠ .known true) : g.streamReady = true := by
  unfold Ghost.streamReady
  split
  next hopen _ => exact absurd hopen h
  · rfl

theorem streamReady_of_no_position (h : g.wptr = .unknown) : g.streamReady = true := by
  unfold Ghost.streamReady
  split
  next hw => simp [hw] at h
  · rfl

/-- An open stream at a known position has its window. -/
theorem streamReady_iff : g.streamReady = true ↔ (g.ramwrOpen = .known true → g.wptr ≠ .unknown → g.windowStart ≠ .unknown) := by
  unfold Ghost.streamReady
  split
  next ho hw => simp [ho, hw]
  next hne =>
    simp only [true_iff]
    intro ho hw
    cases hp : g.wptr with
    | unknown => exact absurd hp hw
    | known p => exact absurd hp (hne p ho)

theorem ghostInv_forget (p : Power) : (Ghost.forget p).Inv cfg := ⟨wf_forget p, rfl, rfl, rfl⟩

theorem Ghost.Inv.addressingInDoubt (h : g.Inv cfg) : g.addressingInDoubt.Inv cfg :=
  ⟨h.memory, rfl, h.format, h.orientation⟩

/-- An opcode in doubt keeps the invariant: it forgets fields, the stream flag among them. -/
theorem Ghost.Inv.opcodeInDoubt (h : g.Inv cfg) (cmd : Cmd) : (g.opcodeInDoubt cmd).Inv cfg := by
  refine ⟨wf_opcodeInDoubt h.memory cmd, ?_, ?_, ?_⟩
  · cases cmd with
    | slpin | slpout => exact h.stream
    | _ => exact streamReady_of_not_open nofun
  · cases cmd with
    | colmod | swreset => rfl
    | _ => exact h.format
  · cases cmd with
    | madctl | swreset => rfl
    | _ => exact h.orientation

/-- A frame cut after its opcode keeps the invariant: no stream is open then but one that sleep left open. -/
theorem Ghost.Inv.frameCut (h : g.Inv cfg) (cmd : Cmd) : ((g.opcodeReceived cmd).frameCut cmd).Inv cfg := by
  refine ⟨wf_frameCut (wf_opcodeReceived h.memory cmd) cmd, ?_, ?_, ?_⟩
  · cases cmd with
    | slpin | slpout => exact h.stream
    | _ => exact streamReady_of_not_open nofun
  · cases cmd with
    | colmod | swreset => rfl
    | _ => exact h.format
  · cases cmd with
    | madctl | swreset => rfl
    | _ => exact h.orientation

/-- A complete frame keeps the invariant: RAMWR starts at a known window's start alone, and the configuration bytes sent are legal. -/
theorem Ghost.Inv.frameReceived (h : g.Inv cfg) (hcfg : cfg.Ok) {axis : Word → Word → Prop} {cmd : Cmd} {params : Option (List Byte)}
    (hsent : Sent cfg axis cmd params) : ((g.opcodeReceived cmd).frameReceived cmd (params.getD [])).Inv cfg := by
  refine ⟨wf_frameReceived (wf_opcodeReceived h.memory cmd) cmd _, ?_, ?_, ?_⟩
  · cases cmd with
    | slpin | slpout => exact h.stream
    | ramwr => exact streamReady_iff.2 fun _ hw => hw
    | caset | raset =>
      obtain ⟨start, last, -, rfl⟩ := hsent
      exact streamReady_of_not_open nofun
    | madctl | colmod =>
      obtain ⟨byte, -, rfl⟩ := hsent
      exact streamReady_of_not_open nofun
    | _ => exact streamReady_of_not_open nofun
  · cases cmd with
    | swreset => rfl
    | colmod =>
      obtain ⟨format, hf | rfl, rfl⟩ := hsent
      · exact hf
      · obtain ⟨-, -, -, -, -, hinit, -⟩ := hcfg
        exact decide_eq_true hinit
    | caset | raset =>
      obtain ⟨start, last, -, rfl⟩ := hsent
      exact h.format
    | madctl =>
      obtain ⟨byte, -, rfl⟩ := hsent
      exact h.format
    | _ => exact h.format
  · cases cmd with
    | swreset => rfl
    | madctl =>
      obtain ⟨-, hbits, -, -, -, -, hinit, -⟩ := hcfg
      obtain ⟨byte, ⟨o, rfl⟩ | rfl, rfl⟩ := hsent
      · simp [Known.meets, Ghost.frameReceived, decodeMadctl_encodeMadctl hbits]
      · exact (decodeMadctl_isSome_iff _ _).2 hinit
    | caset | raset =>
      obtain ⟨start, last, -, rfl⟩ := hsent
      exact h.orientation
    | colmod =>
      obtain ⟨byte, -, rfl⟩ := hsent
      exact h.orientation
    | _ => exact h.orientation

/-- A pixel in doubt loses the position, and no register. -/
theorem pixelInDoubt_keeps (g : Ghost) : g.pixelInDoubt = { g with ram := g.pixelInDoubt.ram, wptr := g.pixelInDoubt.wptr } := by
  unfold Ghost.pixelInDoubt
  split
  · rfl
  · split <;> rfl
  · rfl

/-- A pixel that finds no position leaves none (R62, D26). -/
theorem pixelReceived_wptr_of_unknown (bytes : List Byte) (h : g.wptr = .unknown) : (g.pixelReceived bytes).wptr = .unknown := by
  cases hopen : g.ramwrOpen with
  | unknown => simp [Ghost.pixelReceived, hopen, Ghost.forgetRam]
  | known b => cases b <;> simp [Ghost.pixelReceived, hopen, h, Ghost.forgetRam]

theorem Ghost.Inv.pixelReceived (h : g.Inv cfg) (bytes : List Byte) : (g.pixelReceived bytes).Inv cfg := by
  have hkeeps := pixelReceived_keeps g bytes
  refine ⟨wf_pixelReceived h.memory bytes, streamReady_iff.2 fun hopen hw => ?_, ?_, ?_⟩
  · have hstart : (g.pixelReceived bytes).windowStart = g.windowStart := by
      rw [hkeeps]
      rfl
    rw [hkeeps] at hopen
    rw [hstart]
    exact streamReady_iff.1 h.stream hopen fun hunknown => hw (pixelReceived_wptr_of_unknown bytes hunknown)
  · rw [hkeeps]
    exact h.format
  · rw [hkeeps]
    exact h.orientation

/-- After a pixel in doubt a stream has no position, or none is open. -/
theorem Ghost.Inv.pixelInDoubt (h : g.Inv cfg) : g.pixelInDoubt.Inv cfg := by
  have hkeeps := pixelInDoubt_keeps g
  refine ⟨wf_pixelInDoubt h.memory, ?_, ?_, ?_⟩
  · unfold Ghost.pixelInDoubt
    split
    · exact h.stream
    · split <;> exact streamReady_of_no_position rfl
    · exact streamReady_of_no_position rfl
  · rw [hkeeps]
    exact h.format
  · rw [hkeeps]
    exact h.orientation

end

/-- Every instruction keeps the controller's part of the invariant, whatever way it ends. -/
theorem script_maintains_inv {cfg : Config} (hcfg : cfg.Ok) (hasCs : Bool) {i : Instr} (hlegal : i.wellFormed cfg = true) :
    Maintains (Ghost.Inv cfg) (script cfg hasCs i).calls := by
  refine script_maintains (axis := fun _ _ => True) hasCs hlegal (fun _ _ _ => trivial) (fun cmd params hsent => ?_) (fun color => ?_)
    (maintains_reset (ghostInv_forget _) (ghostInv_forget _)) fun g h => h.addressingInDoubt
  · exact maintains_frame (fun g h => h.opcodeInDoubt cmd) (fun g h => h.frameCut cmd) fun g h => h.frameReceived hcfg hsent
  · exact maintains_pixel (fun g h => h.pixelInDoubt) (fun bytes g h => h.pixelReceived bytes) color

/-- The controller after an accepted instruction, whatever way it ends. -/
theorem runOf_ghost {P : Ghost → Prop} {i : Instr} {s : State} (h : GhostAlways P (script s.cfg s.hasCs i).calls (enter i s.accept).ghost) :
    P (runOf i s).state.ghost := perform_ghostAlways _ h

/-- Settles O50, by evaluation. -/
theorem invariantAtReset : Obligations.InvariantAtReset := by
  unfold Obligations.InvariantAtReset
  decide

/-- An accepted instruction keeps the resources owned exactly while the block is attached (R22). -/
theorem runOf_owns {i : Instr} {s : State} (h : s.life = .attached ↔ s.res.isSome = true) :
    (runOf i s).state.life = .attached ↔ (runOf i s).state.res.isSome = true := by
  rw [runOf_life, runOf_res]
  cases i with
  | attach bus pins | attachConfig bus pins => exact ⟨fun _ => rfl, fun _ => rfl⟩
  | release => exact ⟨nofun, nofun⟩
  | _ => exact h

theorem hasCs_congr {s t : State} (h : t.res = s.res) : t.hasCs = s.hasCs := by rw [State.hasCs, State.hasCs, h]

/-- Without a chip-select pin its shadow stays `Unknown` (R23). -/
theorem runOf_cs_unknown {i : Instr} {s : State} (h : s.life = .attached → s.hasCs = false → s.pins.cs = .unknown)
    (ha : Accepts s i) (hlife : (runOf i s).state.life = .attached) (hcs : (runOf i s).state.hasCs = false) :
    (runOf i s).state.pins.cs = .unknown := by
  by_cases hattach : ∃ bus pins, i = .attach bus pins ∨ i = .attachConfig bus pins
  · obtain ⟨bus, pins, hi⟩ := hattach
    have hres : (runOf i s).state.res = some ⟨bus, pins⟩ := by
      rw [runOf_res]
      rcases hi with rfl | rfl <;> rfl
    rw [State.hasCs, hres] at hcs
    rw [runOf_attach_without_cs hi (by simpa using hcs)]
  by_cases hrelease : i = .release
  · subst hrelease
    rw [runOf_life] at hlife
    cases hlife
  have henter : enter i s.accept = s.accept :=
    enter_of_not_lifecycle (fun bus pins hi => hattach ⟨bus, pins, .inl hi⟩) (fun bus pins hi => hattach ⟨bus, pins, .inr hi⟩) hrelease _
  rw [runOf_life, henter] at hlife
  rw [State.hasCs, runOf_res, henter] at hcs
  rw [runOf_keeps_cs hattach hrelease]
  exact h hlife hcs

theorem enter_ghostInv {i : Instr} {s : State} (h : s.ghost.Inv s.cfg) : (enter i s.accept).ghost.Inv s.cfg := by
  cases i with
  | release =>
    rw [enter, State.disown_ghost]
    split
    · exact ghostInv_forget _
    · exact h
  | _ => exact h

/-- An accepted instruction keeps each part of the invariant. -/
theorem answerOf_inv {i : Instr} {s : State} (ha : Accepts s i) (h : s.Inv) : (answerOf i s).Inv := by
  obtain ⟨hcfg, hmemory, howns, hcs, hstream, hformat, horientation⟩ := h
  have hghost := runOf_ghost (script_maintains_inv hcfg s.hasCs ha.legal _
    (enter_ghostInv (i := i) ⟨hmemory, hstream, hformat, horientation⟩))
  simp only [State.Inv, answerOf_cfg, answerOf_ghost, answerOf_life, answerOf_res, answerOf_pins, runOf_cfg,
    hasCs_congr (t := answerOf i s) (answerOf_res i s)]
  exact ⟨hcfg, hghost.memory, runOf_owns howns, runOf_cs_unknown hcs ha, hghost.stream, hghost.format, hghost.orientation⟩

/-- Settles O51: waiting changes nothing, and the invariant speaks of no field of the chain. -/
theorem invariantKeptByEveryStep : Obligations.InvariantKeptByEveryStep := by
  intro s t hinv hstep
  rcases step_next hstep with ⟨-, -, rfl⟩ | ⟨r, rest, i, -, -, ha, rfl⟩
  · exact hinv
  · exact answerOf_inv ha hinv

/-! ## The window stays in order -/

/-- The known column and row registers are in order (R27, R28). -/
def Ghost.Ordered (g : Ghost) : Prop :=
  (∀ a b, g.xs = .known a → g.xe = .known b → a ≤ b) ∧ (∀ a b, g.ys = .known a → g.ye = .known b → a ≤ b)

theorem ordered_forget (p : Power) : (Ghost.forget p).Ordered := ⟨nofun, nofun⟩

theorem Ghost.Ordered.opcodeInDoubt {g : Ghost} (h : g.Ordered) (cmd : Cmd) : (g.opcodeInDoubt cmd).Ordered := by
  cases cmd with
  | swreset => exact ordered_forget _
  | caset => exact ⟨nofun, h.2⟩
  | raset => exact ⟨h.1, nofun⟩
  | _ => exact h

theorem Ghost.Ordered.frameCut {g : Ghost} (h : g.Ordered) (cmd : Cmd) : ((g.opcodeReceived cmd).frameCut cmd).Ordered := by
  cases cmd with
  | swreset => exact ordered_forget _
  | caset => exact ⟨nofun, h.2⟩
  | raset => exact ⟨h.1, nofun⟩
  | _ => exact h

/-- A window frame with its coordinates in order leaves them in order. -/
theorem Ghost.Ordered.frameReceived {g : Ghost} (h : g.Ordered) {cfg : Config} {cmd : Cmd} {params : Option (List Byte)}
    (hsent : Sent cfg (· ≤ ·) cmd params) : ((g.opcodeReceived cmd).frameReceived cmd (params.getD [])).Ordered := by
  cases cmd with
  | swreset => exact ordered_forget _
  | caset =>
    obtain ⟨start, last, hle, rfl⟩ := hsent
    rw [Option.getD_some, frameReceived_caset_windowBytes]
    refine ⟨?_, h.2⟩
    rintro a b ⟨⟩ ⟨⟩
    exact hle
  | raset =>
    obtain ⟨start, last, hle, rfl⟩ := hsent
    rw [Option.getD_some, frameReceived_raset_windowBytes]
    refine ⟨h.1, ?_⟩
    rintro a b ⟨⟩ ⟨⟩
    exact hle
  | madctl | colmod =>
    obtain ⟨byte, -, rfl⟩ := hsent
    exact h
  | _ => exact h

/-- A request word names no bare frame (R82; log 9). -/
theorem decode_req_not_windowFrame {cfg : Config} {r : Req} {i : Instr} (h : decode cfg (.req r) = .ok i) (start last : Word) :
    i ≠ .caset start last ∧ i ≠ .raset start last := by
  rw [decode, decodeReq] at h
  cases hop : opOfSelector cfg r.sel with
  | none => simp [hop] at h
  | some op =>
    rw [hop] at h
    cases op with
    | memoryAccessControl =>
      simp only [decodeOp, decodeOrientation] at h
      split at h
      · cases h
        exact ⟨nofun, nofun⟩
      · cases h
    | _ =>
      cases h
      exact ⟨nofun, nofun⟩

/-- Settles O52: of what a request word can name, each part leaves the window in order or `Unknown`. -/
theorem windowStaysOrderedUnderRequests : Obligations.WindowStaysOrderedUnderRequests := by
  intro r i s t hdecode h
  obtain ⟨ha, rfl⟩ := accepts_of_exec_next h
  intro ordered hordered
  have haxis (start last : Word) (h : start ≤ last ∨ i = .caset start last ∨ i = .raset start last) : start ≤ last := by
    obtain ⟨hcaset, hraset⟩ := decode_req_not_windowFrame hdecode start last
    exact h.resolve_right fun hbare => hbare.elim hcaset hraset
  have hmaintains : Maintains Ghost.Ordered (script s.cfg s.hasCs i).calls := by
    refine script_maintains s.hasCs ha.legal haxis (fun cmd params hsent => ?_) (fun color => ?_)
      (maintains_reset (ordered_forget _) (ordered_forget _)) fun g _ => ⟨nofun, nofun⟩
    · exact maintains_frame (fun g h => h.opcodeInDoubt cmd) (fun g h => h.frameCut cmd) fun g h => h.frameReceived hsent
    · refine maintains_pixel (fun g h => ?_) (fun bytes g h => ?_) color
      · rw [pixelInDoubt_keeps]
        exact h
      · rw [pixelReceived_keeps]
        exact h
  have henter : (enter i s.accept).ghost.Ordered := by
    cases i with
    | release =>
      rw [enter, State.disown_ghost]
      split
      · exact ordered_forget _
      · exact hordered
    | _ => exact hordered
  rw [answerOf_ghost]
  exact runOf_ghost (hmaintains _ henter)

/-! ## What one command may change -/

theorem Ghost.touchedBy_trans {cmd : Cmd} {g t u : Ghost} (ht : t = g.touchedBy cmd t) (hu : u = t.touchedBy cmd u) : u = g.touchedBy cmd u := by
  rw [ht] at hu
  cases cmd <;> exact hu

theorem frameCut_touches (cmd : Cmd) (g : Ghost) : g.frameCut cmd = g.touchedBy cmd (g.frameCut cmd) := by cases cmd <;> rfl
theorem opcodeInDoubt_touches (cmd : Cmd) (g : Ghost) : g.opcodeInDoubt cmd = g.touchedBy cmd (g.opcodeInDoubt cmd) := by cases cmd <;> rfl
theorem opcodeReceived_touches (cmd : Cmd) (g : Ghost) : g.opcodeReceived cmd = g.touchedBy cmd (g.opcodeReceived cmd) := by cases cmd <;> rfl

theorem frameReceived_touches (cmd : Cmd) (params : List Byte) (g : Ghost) :
    g.frameReceived cmd params = g.touchedBy cmd (g.frameReceived cmd params) := by
  cases cmd with
  | caset | raset | madctl | colmod =>
    simp only [Ghost.frameReceived]
    split <;> rfl
  | _ => rfl

/-- A frame of one command changes what that command may change, whatever way it ends. -/
theorem frame_maintains_touched (cfg : Config) (cmd : Cmd) (params : Option (List Byte)) (g : Ghost) :
    Maintains (fun t => t = g.touchedBy cmd t) (frameCalls cfg cmd params) := by
  have hopcode (t : Ghost) (ht : t = g.touchedBy cmd t) := Ghost.touchedBy_trans ht (opcodeReceived_touches cmd t)
  exact maintains_frame (fun t ht => Ghost.touchedBy_trans ht (opcodeInDoubt_touches cmd t))
    (fun t ht => Ghost.touchedBy_trans (hopcode t ht) (frameCut_touches cmd _))
    fun t ht => Ghost.touchedBy_trans (hopcode t ht) (frameReceived_touches cmd _ _)

/-- What every frame of its one command keeps is kept by an instruction that sends one frame. -/
theorem oneCommand_maintains {P : Ghost → Prop} {cfg : Config} {cmd : Cmd} (hframe : ∀ params, Maintains P (frameCalls cfg cmd params))
    {i : Instr} (h : oneCommand i = some cmd) (hasCs : Bool) : Maintains P (script cfg hasCs i).calls := by
  cases i with
  | setColumnAddress start last | setRowAddress start last =>
    cases h
    simp only [script]
    split
    · exact maintains_nil
    · exact hframe (some (windowBytes start last))
  | caset start last | raset start last =>
    cases h
    exact hframe (some (windowBytes start last))
  | memoryAccessControl o | madctl o =>
    cases h
    exact hframe (some [encodeMadctl cfg.madctlBit o])
  | colmod format =>
    cases h
    exact hframe (some [format])
  | softReset | sleepOut | sleepIn | colorMode =>
    cases h
    exact (hframe _).append (maintains_delay _)
  | setAddressWindow | writeSinglePixel | writePixelStream | hardReset | initializePanel | attach | attachConfig | release | ramwr => cases h
  | _ =>
    cases h
    exact hframe none

theorem oneCommand_ne_ramwr (i : Instr) : oneCommand i ≠ some .ramwr := by cases i <;> nofun

theorem enter_of_oneCommand {i : Instr} {cmd : Cmd} (h : oneCommand i = some cmd) (s : State) : enter i s = s := by
  refine enter_of_not_lifecycle ?_ ?_ ?_ s
  · rintro bus pins rfl
    cases h
  · rintro bus pins rfl
    cases h
  · rintro rfl
    cases h

/-- Only the software reset and the pixel command take the frame memory. -/
theorem ram_of_touchedBy {cmd : Cmd} {g t : Ghost} (h : t = g.touchedBy cmd t) (hreset : cmd ≠ .swreset) (hpixels : cmd ≠ .ramwr) :
    t.ram = g.ram := by
  rw [h]
  cases cmd with
  | swreset => exact absurd rfl hreset
  | ramwr => exact absurd rfl hpixels
  | _ => rfl

/-- Settles O54: each part of the one frame changes what its command may change. -/
theorem oneFrameOperationsFrame : Obligations.OneFrameOperationsFrame := by
  intro i cmd s t hone h
  obtain ⟨ha, rfl⟩ := accepts_of_exec_next h
  have hstart : s.ghost = s.ghost.touchedBy cmd s.ghost := by cases cmd <;> rfl
  have htouched : (runOf i s).state.ghost = s.ghost.touchedBy cmd (runOf i s).state.ghost := by
    refine runOf_ghost (oneCommand_maintains (P := fun t => t = s.ghost.touchedBy cmd t)
      (fun params => frame_maintains_touched s.cfg cmd params s.ghost) hone s.hasCs _ ?_)
    rw [enter_of_oneCommand hone]
    exact hstart
  rw [answerOf_ghost]
  refine ⟨htouched, fun hreset a => ?_⟩
  rw [ram_of_touchedBy htouched hreset fun hcmd => oneCommand_ne_ramwr i (hcmd ▸ hone)]

/-! ## What window and pixel operations may change -/

/-- The controller `t` is `g` but for the window and the stream flag. -/
def Ghost.SameButWindow (g t : Ghost) : Prop :=
  t = { g with xs := t.xs, xe := t.xe, ys := t.ys, ye := t.ye, ramwrOpen := t.ramwrOpen }

theorem sameButWindow_of_touchedBy {g t u : Ghost} {cmd : Cmd} (hcmd : cmd = .caset ∨ cmd = .raset) (h : g.SameButWindow t)
    (hu : u = t.touchedBy cmd u) : g.SameButWindow u := by
  rw [h] at hu
  rcases hcmd with rfl | rfl <;> (rw [hu]; rfl)

/-- The power state, the modes and the two configuration registers are those of `g`. -/
structure Ghost.SameSettings (g t : Ghost) : Prop where
  power : t.power = g.power
  region : t.region = g.region
  inversion : t.inversion = g.inversion
  idle : t.idle = g.idle
  madctl : t.madctl = g.madctl
  colmod : t.colmod = g.colmod

theorem Ghost.SameSettings.of_touchedBy {g t u : Ghost} {cmd : Cmd} (hcmd : cmd = .caset ∨ cmd = .raset ∨ cmd = .ramwr) (h : g.SameSettings t)
    (hu : u = t.touchedBy cmd u) : g.SameSettings u := by
  rw [hu]
  rcases hcmd with rfl | rfl | rfl <;> exact ⟨h.power, h.region, h.inversion, h.idle, h.madctl, h.colmod⟩

theorem Ghost.SameSettings.of_pixel {g t : Ghost} (h : g.SameSettings t) (ram : Memory) (wptr : Known (Word × Word)) :
    g.SameSettings { t with ram := ram, wptr := wptr } := ⟨h.power, h.region, h.inversion, h.idle, h.madctl, h.colmod⟩

theorem Ghost.SameSettings.addressingInDoubt {g t : Ghost} (h : g.SameSettings t) : g.SameSettings t.addressingInDoubt :=
  ⟨h.power, h.region, h.inversion, h.idle, h.madctl, h.colmod⟩

/-- A predicate that holds along whatever a command's parts may change is kept by the command's frames. -/
theorem maintains_frame_of_touchedBy {P : Ghost → Prop} {cfg : Config} {cmd : Cmd} (h : ∀ t u : Ghost, P t → u = t.touchedBy cmd u → P u)
    (params : Option (List Byte)) : Maintains P (frameCalls cfg cmd params) :=
  maintains_frame (fun t ht => h _ _ ht (opcodeInDoubt_touches cmd t))
    (fun t ht => h _ _ (h _ _ ht (opcodeReceived_touches cmd t)) (frameCut_touches cmd _))
    fun t ht => h _ _ (h _ _ ht (opcodeReceived_touches cmd t)) (frameReceived_touches cmd _ _)

/-- The parts of a pixel write keep the settings. -/
theorem pixelParts_maintain_settings (cfg : Config) (g : Ghost) :
    (∀ cmd params, cmd = .caset ∨ cmd = .raset ∨ cmd = .ramwr → Maintains g.SameSettings (frameCalls cfg cmd params)) ∧
    ∀ color, Maintains g.SameSettings (pixelCalls cfg color) := by
  refine ⟨fun cmd params hcmd => maintains_frame_of_touchedBy (fun t u h => h.of_touchedBy hcmd) params, fun color => ?_⟩
  refine maintains_pixel (fun t h => ?_) (fun bytes t h => ?_) color
  · rw [pixelInDoubt_keeps]
    exact h.of_pixel _ _
  · rw [pixelReceived_keeps]
    exact h.of_pixel _ _

/-- Settles O55: the window frames, the opening frame and the pixels each keep what the operations keep. -/
theorem windowAndPixelOperationsFrame : Obligations.WindowAndPixelOperationsFrame := by
  intro i s t h
  obtain ⟨ha, rfl⟩ := accepts_of_exec_next h
  rw [answerOf_ghost]
  refine ⟨?_, fun hi => ?_⟩
  · rintro ⟨colStart, rowStart, colEnd, rowEnd, rfl⟩
    have hframe (cmd : Cmd) (hcmd : cmd = .caset ∨ cmd = .raset) (params : Option (List Byte)) :
        Maintains s.ghost.SameButWindow (frameCalls s.cfg cmd params) :=
      maintains_frame_of_touchedBy (fun t u ht => sameButWindow_of_touchedBy hcmd ht) params
    have hwindow : s.ghost.SameButWindow (runOf (.setAddressWindow colStart rowStart colEnd rowEnd) s).state.ghost :=
      runOf_ghost (maintains_window (fun _ => hframe .caset (.inl rfl) _) (fun _ => hframe .raset (.inr rfl) _) maintains_nil _ rfl)
    refine ⟨hwindow, fun a => ?_⟩
    rw [hwindow]
  · obtain ⟨hframe, hpixel⟩ := pixelParts_maintain_settings s.cfg s.ghost
    have hwindow (colStart rowStart colEnd rowEnd : Word) {rest : List Call} (hrest : Maintains s.ghost.SameSettings rest) :=
      (maintains_window (colStart := colStart) (rowStart := rowStart) (colEnd := colEnd) (rowEnd := rowEnd) (fun _ => hframe .caset _ (.inl rfl))
        (fun _ => hframe .raset _ (.inr (.inl rfl))) hrest).losing fun _ h => h.addressingInDoubt
    have hopen (params : Option (List Byte)) := hframe .ramwr params (.inr (.inr rfl))
    have hstart : s.ghost.SameSettings s.ghost := ⟨rfl, rfl, rfl, rfl, rfl, rfl⟩
    have hsame : s.ghost.SameSettings (runOf i s).state.ghost := by
      rcases hi with ⟨x, y, color, rfl⟩ | ⟨colStart, rowStart, colEnd, rowEnd, colors, rfl⟩ | ⟨colors, rfl⟩
      · exact runOf_ghost (hwindow _ _ _ _ ((hopen none).append (hpixel color)) _ hstart)
      · exact runOf_ghost (hwindow _ _ _ _ ((hopen (some [])).append (maintains_flatMap hpixel colors)) _ hstart)
      · exact runOf_ghost (((hopen none).append (maintains_flatMap hpixel colors)).losing (fun _ h => h.addressingInDoubt) _ hstart)
    exact ⟨hsame.power, hsame.region, hsame.inversion, hsame.idle, hsame.madctl, hsame.colmod⟩

end Sys2Proof.Machine

/-! The window operation and the pixel writes, when their calls succeed and when one fails. -/

namespace Sys2Proof.Machine

/-! ## The calls of a window and of a stream -/

/-- The eight calls of a window with both axes in order (R112). -/
def windowCalls (cfg : Config) (colStart rowStart colEnd rowEnd : Word) : List Call :=
  axisCalls cfg .caset colStart colEnd ++ axisCalls cfg .raset rowStart rowEnd

/-- The opening frame of a stream and the calls of its pixels (R74, R120, R121). -/
def streamCalls (cfg : Config) (params : Option (List Byte)) (colors : List Word) : List Call :=
  frameCalls cfg .ramwr params ++ colors.flatMap (pixelCalls cfg)

/-- The controller after a run of pixels (R62). -/
def Ghost.pixelsReceived (colors : List Word) (g : Ghost) : Ghost := colors.foldl (fun g c => g.pixelReceived (be16 c)) g

section
variable {cfg : Config} {colStart rowStart colEnd rowEnd : Word} {hasCs : Bool}

theorem script_setAddressWindow (hcol : colStart ≤ colEnd) (hrow : rowStart ≤ rowEnd) :
    script cfg hasCs (.setAddressWindow colStart rowStart colEnd rowEnd) = .ofCalls (windowCalls cfg colStart rowStart colEnd rowEnd) := by
  rw [script, windowScript_of_le hcol hrow, List.append_nil]
  rfl

theorem script_writeSinglePixel (cfg : Config) (hasCs : Bool) (x y color : Word) :
    script cfg hasCs (.writeSinglePixel x y color) = (Script.ofCalls (windowCalls cfg x y x y ++ streamCalls cfg none [color])).losing := by
  rw [script, windowScript_of_le (BitVec.le_refl _) (BitVec.le_refl _)]
  simp [windowCalls, streamCalls]

theorem script_writePixelStream (hcol : colStart ≤ colEnd) (hrow : rowStart ≤ rowEnd) (colors : List Word) :
    script cfg hasCs (.writePixelStream colStart rowStart colEnd rowEnd colors) =
      (Script.ofCalls (windowCalls cfg colStart rowStart colEnd rowEnd ++ streamCalls cfg (some []) colors)).losing := by
  rw [script, windowScript_of_le hcol hrow]
  rfl

theorem script_ramwr (cfg : Config) (hasCs : Bool) (colors : List Word) :
    script cfg hasCs (.ramwr colors) = (Script.ofCalls (streamCalls cfg none colors)).losing := rfl

/-! ### Answers taken -/

theorem asked_windowCalls (cfg : Config) (colStart rowStart colEnd rowEnd : Word) :
    asked (windowCalls cfg colStart rowStart colEnd rowEnd) = 8 := by
  rw [windowCalls, axisCalls, axisCalls, asked_append, asked_frameCalls, asked_frameCalls]
  rfl

theorem asked_pixels (cfg : Config) (colors : List Word) : asked (colors.flatMap (pixelCalls cfg)) = 2 * colors.length := by
  induction colors with
  | nil => rfl
  | cons c cs ih =>
    have hpixel : asked (pixelCalls cfg c) = 2 := rfl
    rw [List.flatMap_cons, asked_append, hpixel, ih, List.length_cons]
    omega

theorem asked_streamCalls (cfg : Config) (params : Option (List Byte)) (colors : List Word) :
    asked (streamCalls cfg params colors) = (if hasDataPhase cfg params then 4 else 2) + 2 * colors.length := by
  rw [streamCalls, asked_append, asked_frameCalls, asked_pixels]

/-! ### Pin shadows -/

theorem pinsAfter_windowCalls (cfg : Config) (colStart rowStart colEnd rowEnd : Word) (ps : Pins) :
    pinsAfter (windowCalls cfg colStart rowStart colEnd rowEnd) ps = { ps with dc := .known (dcDataLevel cfg) } := by
  rw [windowCalls, axisCalls, axisCalls, pinsAfter_append, pinsAfter_frameCalls, pinsAfter_frameCalls]
  rfl

theorem pinsAfter_pixels (cfg : Config) (colors : List Word) (ps : Pins) :
    pinsAfter (colors.flatMap (pixelCalls cfg)) ps = { ps with dc := if colors.isEmpty then ps.dc else .known (dcDataLevel cfg) } := by
  induction colors generalizing ps with
  | nil => rfl
  | cons c cs ih =>
    have hpixel : pinsAfter (pixelCalls cfg c) ps = { ps with dc := .known (dcDataLevel cfg) } := rfl
    rw [List.flatMap_cons, pinsAfter_append, hpixel, ih]
    simp

/-! ### The controller -/

theorem ghostAfter_windowCalls (cfg : Config) (colStart rowStart colEnd rowEnd : Word) (g : Ghost) :
    ghostAfter (windowCalls cfg colStart rowStart colEnd rowEnd) g =
      { g with xs := .known colStart, xe := .known colEnd, ys := .known rowStart, ye := .known rowEnd, ramwrOpen := .known false } := by
  rw [windowCalls, ghostAfter_append, ghostAfter_caset, ghostAfter_raset]

theorem ghostAfter_pixels (cfg : Config) (colors : List Word) (g : Ghost) :
    ghostAfter (colors.flatMap (pixelCalls cfg)) g = g.pixelsReceived colors := by
  induction colors generalizing g with
  | nil => rfl
  | cons c cs ih =>
    rw [List.flatMap_cons, ghostAfter_append, ih]
    rfl

theorem ghostAfter_streamCalls (cfg : Config) (params : Option (List Byte)) (colors : List Word) (g : Ghost) :
    ghostAfter (streamCalls cfg params colors) g =
      ({ g with ramwrOpen := .known true, wptr := g.windowStart } : Ghost).pixelsReceived colors := by
  rw [streamCalls, ghostAfter_append, ghostAfter_frameCalls, ghostAfter_pixels]
  rfl

/-- The pixels of a stream change the frame memory and the position alone (R62). -/
theorem pixelsReceived_keeps (colors : List Word) (g : Ghost) :
    g.pixelsReceived colors = { g with ram := (g.pixelsReceived colors).ram, wptr := (g.pixelsReceived colors).wptr } := by
  induction colors generalizing g with
  | nil => rfl
  | cons c cs ih =>
    have hfirst := pixelReceived_keeps g (be16 c)
    rw [Ghost.pixelsReceived, List.foldl_cons, ← Ghost.pixelsReceived, ih, hfirst]

/-- Pixels at an unknown position: the first of them loses the frame memory (R62, D26). -/
theorem pixelsReceived_of_unknown {colors : List Word} {g : Ghost} (hopen : g.ramwrOpen = .known true) (hw : g.wptr = .unknown) :
    (g.pixelsReceived colors).wptr = .unknown ∧ (colors ≠ [] → (g.pixelsReceived colors).ram = []) := by
  induction colors generalizing g with
  | nil => exact ⟨hw, fun h => absurd rfl h⟩
  | cons c cs ih =>
    have hfirst : g.pixelReceived (be16 c) = g.forgetRam := by simp [Ghost.pixelReceived, hopen, hw]
    obtain ⟨hpos, hram⟩ := ih (g := g.pixelReceived (be16 c)) (by rw [hfirst]; exact hopen) (by rw [hfirst]; rfl)
    refine ⟨hpos, fun _ => ?_⟩
    by_cases hcs : cs = []
    · subst hcs
      exact congrArg Ghost.ram hfirst
    · exact hram hcs

/-! ### Events -/

/-- The events of calls that all succeed. -/
def eventsOf (cs : List Call) : List Event := cs.map fun c => c.event.succeeding

theorem eventsOf_append (a b : List Call) : eventsOf (a ++ b) = eventsOf a ++ eventsOf b := List.map_append

theorem eventsOf_windowCalls (cfg : Config) (colStart rowStart colEnd rowEnd : Word) :
    eventsOf (windowCalls cfg colStart rowStart colEnd rowEnd) = windowEvents cfg colStart rowStart colEnd rowEnd := rfl

theorem eventsOf_pixels (cfg : Config) (colors : List Word) :
    eventsOf (colors.flatMap (pixelCalls cfg)) = colors.flatMap fun c => dataEvents cfg [hi8 c, lo8 c] := by
  rw [eventsOf, List.map_flatMap]
  rfl

theorem frameCalls_without_dataPhase {cmd : Cmd} {params : Option (List Byte)} (h : hasDataPhase cfg params = false)
    (hparams : params.getD [] = []) : frameCalls cfg cmd params = frameCalls cfg cmd none := by
  rw [frameCalls, h, hparams]
  rfl

theorem eventsOf_streamCalls (cfg : Config) (colors : List Word) :
    eventsOf (streamCalls cfg none colors) = commandEvents cfg .ramwr ++ colors.flatMap fun c => dataEvents cfg [hi8 c, lo8 c] := by
  rw [streamCalls, eventsOf_append, eventsOf_pixels]
  rfl

end

/-- With the default for empty parameter lists a stream opens as a single pixel does (R100 corner case 2; log 24). -/
theorem streamCalls_empty {cfg : Config} (h : cfg.emptyParamsDataPhase = false) (colors : List Word) :
    streamCalls cfg (some []) colors = streamCalls cfg none colors := by
  rw [streamCalls, frameCalls_without_dataPhase (params := some []) h rfl, streamCalls]

/-! ## A pixel write with known answers -/

theorem asked_eq_countP (cs : List Call) : asked cs = (cs.map Call.event).countP Event.asks := by
  rw [List.countP_map]
  rfl

@[simp] theorem asked_losing (cs : List Call) : asked (losingCalls cs) = asked cs := by
  rw [asked_eq_countP, losingCalls_events, asked_eq_countP]

theorem eventsOf_losing (cs : List Call) : eventsOf (losingCalls cs) = eventsOf cs := by
  have hmap (ds : List Call) : eventsOf ds = (ds.map Call.event).map Event.succeeding := by
    rw [List.map_map]
    rfl
  rw [hmap, losingCalls_events, hmap]

theorem pinsAfter_losing (cs : List Call) (ps : Pins) : pinsAfter (losingCalls cs) ps = pinsAfter cs ps := by
  have hfold (ds : List Call) : pinsAfter ds ps = (ds.map Call.event).foldl Pins.did ps := by
    rw [List.foldl_map]
    rfl
  rw [hfold, losingCalls_events, hfold]

theorem ghostAfter_losing (cs : List Call) (g : Ghost) : ghostAfter (losingCalls cs) g = ghostAfter cs g := by
  cases cs with
  | nil => rfl
  | cons c cs =>
    rw [losingCalls, ghostAfter, List.foldl_cons, List.foldl_map]
    rfl

section
variable {i : Instr} {s : State} {e : ErrorValue} {rest : List Answer}

/-- A pixel write whose calls all succeed (R120, R121). -/
theorem OnHandle.exec_losing_ok (hi : OnHandle i) {calls : List Call} (hr : s.Ready) (hlegal : i.wellFormed s.cfg = true)
    (hs : script s.cfg s.hasCs i = (Script.ofCalls calls).losing) (hok : s.AnswersOk (asked calls)) :
    exec i s = .next { s.succeeded (asked calls) (eventsOf calls) with
      pins := pinsAfter calls s.pins, ghost := ghostAfter calls s.ghost } := by
  rw [← asked_losing] at hok
  rw [hi.exec_ok hr hlegal hs hok, ← eventsOf, asked_losing, eventsOf_losing, pinsAfter_losing, ghostAfter_losing]
  rfl

/-- A pixel write with a call that fails after its first (R124, R189; log 15). -/
theorem OnHandle.exec_losing_fail (hi : OnHandle i) {c : Call} {earlier later : List Call} (hr : s.Ready)
    (hlegal : i.wellFormed s.cfg = true) (hfirst : earlier ≠ [])
    (hs : script s.cfg s.hasCs i = (Script.ofCalls (earlier ++ c :: later)).losing) (hc : c.event.asks = true)
    (henv : s.env = List.replicate (asked earlier) .ok ++ .fail e :: rest) :
    exec i s = .next
      { s.failed (asked earlier + 1) (eventsOf earlier ++ [c.event.failing e]) (c.event.error e) with
        pins := (pinsAfter earlier s.pins).lost c.event,
        ghost := (c.cut (ghostAfter earlier s.ghost)).addressingInDoubt } := by
  have hsplit : (Script.ofCalls (earlier ++ c :: later)).losing =
      .ofCalls (losingCalls earlier ++ c.losing :: later.map Call.losing) := by
    cases earlier with
    | nil => exact absurd rfl hfirst
    | cons d ds => simp [Script.losing, Script.ofCalls, losingCalls]
  rw [← asked_losing] at henv
  rw [hi.exec_fail hr hlegal (hs.trans hsplit) hc henv, ← eventsOf, asked_losing, eventsOf_losing, pinsAfter_losing, ghostAfter_losing]
  rfl

end

/-! ## The window operation -/

/-- Settles O20: eight calls when both axes are in order, and otherwise one leg after the other. -/
theorem setAddressWindowSendsColumnThenRow : Obligations.SetAddressWindowSendsColumnThenRow := by
  intro s colStart rowStart colEnd rowEnd
  have hi : OnHandle (.setAddressWindow colStart rowStart colEnd rowEnd) := onHandle rfl nofun
  refine ⟨fun hr hcol hrow hok => ?_, fun hr hlt => ?_, fun why t h => ?_, fun t h => ?_⟩
  · have hs := script_setAddressWindow (cfg := s.cfg) (hasCs := s.hasCs) hcol hrow
    rw [hi.exec_ok hr rfl hs (by rwa [asked_windowCalls]), ← eventsOf, asked_windowCalls, eventsOf_windowCalls, pinsAfter_windowCalls,
      ghostAfter_windowCalls]
  · exact handleOp_raise (body := setAddressWindow colStart rowStart colEnd rowEnd) hr
      (by rw [setAddressWindow, setColumnAddress_of_lt hlt, Run.stopped_andThen]; rfl)
  · rw [setAddressWindow, h, Run.stopped_andThen]
  · rw [setAddressWindow, h, Run.done_andThen]

/-! ## Pixel writes as windows and streams -/

/-- The states differ in the controller alone. -/
def SameButGhost (s t : State) : Prop := t = { s with ghost := t.ghost }

theorem sameButGhost_lockstep : Lockstep SameButGhost where
  env h := by rw [h]
  did ev f g h := by rw [h]; cases ev <;> rfl
  missed e ev f g h := by rw [h]; rfl
  stuck ev f g h := by rw [h]; rfl

theorem Run.Alike.same {r r' : Run} (h : r.Alike SameButGhost r') :
    r.why = r'.why ∧ r.state.trace = r'.state.trace ∧ r.state.pins = r'.state.pins ∧ r.state.env = r'.state.env := by
  have hfields {s t : State} (hst : SameButGhost s t) : s.trace = t.trace ∧ s.pins = t.pins ∧ s.env = t.env := by
    rw [hst]
    exact ⟨rfl, rfl, rfl⟩
  cases r <;> cases r'
  case done.done s t => exact ⟨rfl, hfields h⟩
  case stopped.stopped w s v t => exact ⟨congrArg some h.1, hfields h.2⟩
  case done.stopped | stopped.done => exact h.elim

/-- Settles O22: both make the same calls, which mean the same but to the controller. -/
theorem singlePixelIsWindowThenPayload : Obligations.SinglePixelIsWindowThenPayload := by
  intro s x y color
  have hpixel : writeSinglePixel x y color s =
      perform none (losingCalls (windowCalls s.cfg x y x y ++ streamCalls s.cfg none [color])) s := by
    have h := body_eq_script (.writeSinglePixel x y color) s
    rw [script_writeSinglePixel] at h
    exact h
  have hpayload : (setAddressWindow x y x y s).andThen (sendCommand .ramwr (some [hi8 color, lo8 color])) =
      perform none (windowCalls s.cfg x y x y ++ frameCalls s.cfg .ramwr (some [hi8 color, lo8 color])) s := by
    rw [setAddressWindow_andThen fun t ht => by rw [sendCommand_eq_calls, ht],
      windowScript_of_le (BitVec.le_refl _) (BitVec.le_refl _)]
    rfl
  dsimp only
  rw [hpixel, hpayload]
  exact (perform_alike sameButGhost_lockstep none (by rw [losingCalls_events]; rfl) (t := s) (h := (rfl : SameButGhost s s))).same

/-- Settles O26: the two instructions have one script. -/
theorem streamOfOneColourIsSinglePixel : Obligations.StreamOfOneColourIsSinglePixel := by
  intro s x y color hempty
  have hscript : script s.cfg s.hasCs (.writePixelStream x y x y [color]) = script s.cfg s.hasCs (.writeSinglePixel x y color) := by
    rw [script_writePixelStream (BitVec.le_refl _) (BitVec.le_refl _), streamCalls_empty hempty, script_writeSinglePixel]
  by_cases ha : Accepts s (.writeSinglePixel x y color)
  · have ha' : Accepts s (.writePixelStream x y x y [color]) := ⟨ha.free, ha.life, ha.legal⟩
    rw [exec_of_accepts ha, exec_of_accepts ha', answerOf, runOf, hscript]
    rfl
  · rw [exec_of_not_accepts ha, exec_of_not_accepts (i := .writePixelStream x y x y [color]) fun h => ha ⟨h.free, h.life, h.legal⟩]
    rfl

/-! ## A pixel write that fails -/

/-- Cut short by an error that is not the operands', a pixel write whose first call succeeded has lost the addressing state. -/
theorem addressingLost_ghost {r : Run} {start : State} {e : Err} (hstart : start.answer = .ok)
    (hwhy : (r.addressingLost start).why = some (.err e)) (hcol : e ≠ .invalidColumnAddress) (hrow : e ≠ .invalidRowAddress) :
    ∃ g : Ghost, (r.addressingLost start).state.ghost = g.addressingInDoubt := by
  cases r with
  | done s => cases hwhy
  | stopped why s =>
    obtain rfl : why = .err e := Option.some.inj hwhy
    have hcall : (Stop.err e).AtCall := by
      cases e with
      | pinError e | busError e => trivial
      | invalidColumnAddress => exact absurd rfl hcol
      | invalidRowAddress => exact absurd rfl hrow
    exact ⟨s.ghost, by simp [Run.addressingLost, mayHaveSent_of_atCall hcall, hstart, Run.state, State.onGhost]⟩

/-- Settles O27: each of the three loses the addressing state by the same rule. -/
theorem failedPixelWriteLosesTheAddressing : Obligations.FailedPixelWriteLosesTheAddressing := by
  intro s t i e hi hok h hres hcol hrow
  obtain ⟨-, rfl⟩ := accepts_of_exec_next h
  have hwhy : (runOf i s).why = some (.err e) := by
    rw [(runOf_observed i s).2]
    exact returned_result hres
  obtain ⟨r, hbody⟩ : ∃ r : Run, runOf i s = r.addressingLost s.accept := by
    rcases hi with ⟨x, y, color, rfl⟩ | ⟨colStart, rowStart, colEnd, rowEnd, colors, rfl⟩ | ⟨colors, rfl⟩ <;>
      exact ⟨_, (body_eq_script _ s.accept).symm⟩
  rw [hbody] at hwhy
  obtain ⟨g, hg⟩ := addressingLost_ghost (start := s.accept) hok hwhy hcol hrow
  rw [answerOf_ghost, hbody, hg]
  exact ⟨rfl, rfl, rfl, rfl, rfl, rfl⟩

/-! ## A pixel write that succeeds -/

/-- Settles O23: one data phase for each colour, and the pixels keep the window and the stream flag. -/
theorem writePixelStreamSendsEveryColour : Obligations.WritePixelStreamSendsEveryColour := by
  intro s colStart rowStart colEnd rowEnd colors hr hcol hrow hok hempty
  have hi : OnHandle (.writePixelStream colStart rowStart colEnd rowEnd colors) := onHandle rfl nofun
  have hs := script_writePixelStream (cfg := s.cfg) (hasCs := s.hasCs) hcol hrow colors
  rw [streamCalls_empty hempty] at hs
  have hasked : asked (windowCalls s.cfg colStart rowStart colEnd rowEnd ++ streamCalls s.cfg none colors) = 10 + 2 * colors.length := by
    rw [asked_append, asked_windowCalls, asked_streamCalls]
    show 8 + (2 + _) = _
    omega
  have hpins : pinsAfter (windowCalls s.cfg colStart rowStart colEnd rowEnd ++ streamCalls s.cfg none colors) s.pins =
      { s.pins with dc := .known (if colors.isEmpty then s.cfg.dcCmdLevel else dcDataLevel s.cfg) } := by
    rw [pinsAfter_append, pinsAfter_windowCalls, streamCalls, pinsAfter_append, pinsAfter_frameCalls, pinsAfter_pixels]
    cases colors <;> rfl
  refine ⟨ghostAfter (windowCalls s.cfg colStart rowStart colEnd rowEnd ++ streamCalls s.cfg none colors) s.ghost, ?_, ?_⟩
  · rw [hi.exec_losing_ok hr rfl hs (answersOk_mono hok (by omega)), hasked, hpins, eventsOf_append, eventsOf_windowCalls,
      eventsOf_streamCalls, List.append_assoc]
  · rw [ghostAfter_append, ghostAfter_windowCalls, ghostAfter_streamCalls, pixelsReceived_keeps]
    exact ⟨rfl, rfl, rfl, rfl, rfl⟩

/-! ### One pixel -/

theorem Memory.readPixel_writePixel_same (m : Memory) (col row v : Word) : (m.writePixel col row v).readPixel col row = .known v := by
  have hhigh : (m.writePixel col row v).readByte (pixelAddr col row) = .known (hi8 v) := by
    rw [Memory.writePixel, Memory.readByte_writeByte_other _ _ (by omega), Memory.readByte_writeByte_same]
  have hlow : (m.writePixel col row v).readByte (pixelAddr col row + 1) = .known (lo8 v) := Memory.readByte_writeByte_same ..
  simp [Memory.readPixel, hhigh, hlow]

theorem Memory.readPixel_forgetPixel_same (m : Memory) (col row : Word) : (m.forgetPixel col row).readPixel col row = .unknown := by
  have hlow : (m.forgetPixel col row).readByte (pixelAddr col row + 1) = .unknown := Memory.readByte_forgetByte_same ..
  simp [Memory.readPixel, hlow]

/-- A pixel whose two bytes read alike reads alike. -/
theorem Memory.readPixel_congr {m m' : Memory} {col row : Word} (hhigh : m'.readByte (pixelAddr col row) = m.readByte (pixelAddr col row))
    (hlow : m'.readByte (pixelAddr col row + 1) = m.readByte (pixelAddr col row + 1)) : m'.readPixel col row = m.readPixel col row := by
  rw [Memory.readPixel, hhigh, hlow]
  rfl

/-- The bytes of another pixel are none of this pixel's. -/
theorem pixelAddr_other {col row col' row' : Word} (h : (col', row') ≠ (col, row)) :
    (pixelAddr col' row' ≠ pixelAddr col row ∧ pixelAddr col' row' ≠ pixelAddr col row + 1) ∧
    (pixelAddr col' row' + 1 ≠ pixelAddr col row ∧ pixelAddr col' row' + 1 ≠ pixelAddr col row + 1) := by
  have hne : pixelAddr col' row' ≠ pixelAddr col row := fun ha => by
    obtain ⟨rfl, rfl⟩ := pixelAddr_inj ha
    exact h rfl
  exact ⟨⟨hne, pixelAddr_even _ _ _ _⟩, (pixelAddr_even _ _ _ _).symm, fun ha => hne (Nat.succ_injective ha)⟩

theorem Memory.readPixel_writePixel_other (m : Memory) {col row col' row' : Word} (v : Word) (h : (col', row') ≠ (col, row)) :
    (m.writePixel col row v).readPixel col' row' = m.readPixel col' row' := by
  obtain ⟨⟨hhigh, hhigh'⟩, hlow, hlow'⟩ := pixelAddr_other h
  exact readPixel_congr (readByte_writePixel_other m hhigh hhigh') (readByte_writePixel_other m hlow hlow')

theorem Memory.readPixel_forgetPixel_other (m : Memory) {col row col' row' : Word} (h : (col', row') ≠ (col, row)) :
    (m.forgetPixel col row).readPixel col' row' = m.readPixel col' row' := by
  obtain ⟨⟨hhigh, hhigh'⟩, hlow, hlow'⟩ := pixelAddr_other h
  exact readPixel_congr (readByte_forgetPixel_other m hhigh hhigh') (readByte_forgetPixel_other m hlow hlow')

/-- The controller after a single pixel: its window is full, and the pixel is written if its format is known to be 16 bits. -/
theorem ghostAfter_singlePixel (cfg : Config) (x y color : Word) (g : Ghost) :
    ghostAfter (windowCalls cfg x y x y ++ streamCalls cfg none [color]) g =
      { g with xs := .known x, xe := .known x, ys := .known y, ye := .known y, wptr := .unknown, ramwrOpen := .known true,
               ram := if sixteenBit g.colmod then g.ram.writePixel x y color else [] } := by
  rw [ghostAfter_append, ghostAfter_windowCalls, ghostAfter_streamCalls]
  cases h : sixteenBit g.colmod <;>
    simp [Ghost.pixelsReceived, Ghost.pixelReceived, Ghost.windowStart, be16, h, Ghost.advance, Ghost.forgetRam]

theorem State.pixel_of_inPanel {s : State} {col row : Word} (hcol : col.toNat < s.cfg.panelW) (hrow : row.toNat < s.cfg.panelH) :
    s.pixel col row = s.ghost.ram.readPixel col row := by
  simp [State.pixel, inPanel, hcol, hrow]

theorem State.pixel_of_not_inPanel {s : State} {col row : Word} (h : s.cfg.panelW ≤ col.toNat ∨ s.cfg.panelH ≤ row.toNat) :
    s.pixel col row = .unknown := by
  have hout : inPanel s.cfg col row = false := by
    simp only [inPanel, Bool.and_eq_false_iff, decide_eq_false_iff_not]
    omega
  simp [State.pixel, hout]

/-- Settles O21: twelve calls, and the one pixel fills its window. -/
theorem writeSinglePixelStoresThePixel : Obligations.WriteSinglePixelStoresThePixel := by
  intro s x y color hr hok
  have hi : OnHandle (.writeSinglePixel x y color) := onHandle rfl nofun
  have hexec := hi.exec_losing_ok (calls := windowCalls s.cfg x y x y ++ streamCalls s.cfg none [color]) hr rfl
    (script_writeSinglePixel _ _ _ _ _) hok
  rw [ghostAfter_singlePixel] at hexec
  refine ⟨_, hexec, rfl, fun hformat hx hy => ?_, fun hformat col row hne => ?_, fun col row hout => ?_⟩
  · refine (State.pixel_of_inPanel (by exact hx) (by exact hy)).trans ?_
    simp only [hformat, if_true]
    exact Memory.readPixel_writePixel_same ..
  · rw [State.pixel, State.pixel]
    simp only [hformat, if_true]
    rw [Memory.readPixel_writePixel_other _ _ hne]
    rfl
  · exact State.pixel_of_not_inPanel hout

end Sys2Proof.Machine

/-! A stream in its rectangle: where each colour lands, what is left when a call fails, and which bytes no colour touches. -/

namespace Sys2Proof.Machine

/-! ## The cells of a rectangle -/

/-- A rectangle of pixels, ends inclusive (R123). -/
structure Window where
  colStart : Word
  rowStart : Word
  colEnd : Word
  rowEnd : Word

namespace Window
variable (w : Window)

/-- Columns of the rectangle. -/
def width : Nat := w.colEnd.toNat - w.colStart.toNat + 1

/-- Pixels of the rectangle. -/
def count : Nat := pixelCount w.colStart w.rowStart w.colEnd w.rowEnd

/-- Cell number `k` of the rectangle, row-major (R62, R121). -/
def cell (k : Nat) : Word × Word := (w.colStart + BitVec.ofNat 16 (k % w.width), w.rowStart + BitVec.ofNat 16 (k / w.width))

/-- The address of the high byte of cell `k`. -/
def addr (k : Nat) : Nat := pixelAddr (w.cell k).1 (w.cell k).2

/-- The byte address is none of cell `k`'s two. -/
def Avoids (a k : Nat) : Prop := a ≠ w.addr k ∧ a ≠ w.addr k + 1

/-- Both axes are in order. -/
structure Ordered : Prop where
  col : w.colStart ≤ w.colEnd
  row : w.rowStart ≤ w.rowEnd

variable {w} {n : Nat}

theorem lt_count_iff : n < w.count ↔ n / w.width < w.rowEnd.toNat - w.rowStart.toNat + 1 :=
  by
  rw [Nat.div_lt_iff_lt_mul (show 0 < w.width from Nat.succ_pos _), Nat.mul_comm]
  rfl

theorem col_le (hw : w.Ordered) : w.colStart.toNat ≤ w.colEnd.toNat := BitVec.le_def.1 hw.col

theorem row_le (hw : w.Ordered) : w.rowStart.toNat ≤ w.rowEnd.toNat := BitVec.le_def.1 hw.row

/-- No coordinate of a cell overflows: the rectangle ends within the address space. -/
theorem cell_toNat (hw : w.Ordered) (hn : n < w.count) :
    (w.cell n).1.toNat = w.colStart.toNat + n % w.width ∧ (w.cell n).2.toNat = w.rowStart.toNat + n / w.width := by
  have hcol := Nat.mod_lt n (show 0 < w.width from Nat.succ_pos _)
  have hrow := lt_count_iff.1 hn
  have hcols := col_le hw
  have hrows := row_le hw
  have hcolEnd := w.colEnd.isLt
  have hrowEnd := w.rowEnd.isLt
  have hwidth : w.width = w.colEnd.toNat - w.colStart.toNat + 1 := rfl
  simp only [cell, BitVec.toNat_add, BitVec.toNat_ofNat]
  generalize n % w.width = r at hcol ⊢
  generalize n / w.width = q at hrow ⊢
  constructor <;> omega

/-- Two cells of a rectangle are different pixels. -/
theorem cell_inj (hw : w.Ordered) {j k : Nat} (hj : j < w.count) (hk : k < w.count) (h : w.cell j = w.cell k) : j = k := by
  obtain ⟨hcolj, hrowj⟩ := cell_toNat hw hj
  obtain ⟨hcolk, hrowk⟩ := cell_toNat hw hk
  rw [h] at hcolj hrowj
  have hmod : j % w.width = k % w.width := by omega
  have hdiv : j / w.width = k / w.width := by omega
  rw [← Nat.div_add_mod j w.width, ← Nat.div_add_mod k w.width, hmod, hdiv]

/-- The bytes of one cell are none of another's. -/
theorem avoids_cell (hw : w.Ordered) {j k : Nat} (hj : j < w.count) (hk : k < w.count) (hne : j ≠ k) :
    w.Avoids (w.addr j) k ∧ w.Avoids (w.addr j + 1) k :=
  pixelAddr_other fun h => hne (cell_inj hw hj hk h)

/-- One more cell is one column on, or the first column of the next row. -/
theorem succ_mod_div (m : Nat) (hm : 0 < m) :
    (n % m + 1 < m ∧ (n + 1) % m = n % m + 1 ∧ (n + 1) / m = n / m) ∨
    (n % m + 1 = m ∧ (n + 1) % m = 0 ∧ (n + 1) / m = n / m + 1) := by
  have hlt := Nat.mod_lt n hm
  have hn : n + 1 = m * (n / m) + (n % m + 1) := by
    rw [← Nat.add_assoc, Nat.div_add_mod]
  rw [hn, Nat.mul_add_mod, Nat.mul_add_div hm]
  rcases Nat.lt_or_ge (n % m + 1) m with h | h
  · exact .inl ⟨h, Nat.mod_eq_of_lt h, by rw [Nat.div_eq_of_lt h, Nat.add_zero]⟩
  · have heq : n % m + 1 = m := by omega
    exact .inr ⟨heq, by rw [heq, Nat.mod_self], by rw [heq, Nat.div_self hm]⟩

end Window

/-! ## A stream at cell `n` of its rectangle -/

/-- The controller has the rectangle as its window, a stream open in a 16-bit format, and `n` pixels of it received: the next one's place
is cell `n`, unknown past the last; a pixel past the last has lost the frame memory (R62, D26). -/
structure Window.Filling (w : Window) (n : Nat) (g : Ghost) : Prop where
  xs : g.xs = .known w.colStart
  xe : g.xe = .known w.colEnd
  ys : g.ys = .known w.rowStart
  ye : g.ye = .known w.rowEnd
  isOpen : g.ramwrOpen = .known true
  format : sixteenBit g.colmod = true
  position : g.wptr = if n < w.count then .known (w.cell n) else .unknown
  lost : w.count < n → g.ram = []

namespace Window.Filling
variable {w : Window} {n : Nat} {g : Ghost}

/-- The fill moves row-major, and past the last cell its place is unknown. -/
theorem advance_cell (hw : w.Ordered) (h : w.Filling n g) (hn : n < w.count) :
    g.advance (w.cell n).1 (w.cell n).2 = if n + 1 < w.count then .known (w.cell (n + 1)) else .unknown := by
  obtain ⟨hcol, hrow⟩ := cell_toNat hw hn
  have hcols := col_le hw
  have hrows := row_le hw
  have hwidth : w.width = w.colEnd.toNat - w.colStart.toNat + 1 := rfl
  have hdiv := lt_count_iff.1 hn
  simp only [Ghost.advance, h.xs, h.xe, h.ye, BitVec.lt_def, lt_count_iff, hcol, hrow]
  rcases succ_mod_div (n := n) w.width (Nat.succ_pos _) with ⟨hlt, hmod, hdivs⟩ | ⟨heq, hmod, hdivs⟩
  · rw [if_pos (by omega), if_pos (by omega)]
    simp [cell, hmod, hdivs, BitVec.ofNat_add, BitVec.add_assoc]
  · rw [if_neg (by omega)]
    by_cases hlast : w.rowStart.toNat + n / w.width < w.rowEnd.toNat
    · rw [if_pos hlast, if_pos (by omega)]
      simp [cell, hmod, hdivs, BitVec.ofNat_add, BitVec.add_assoc]
    · rw [if_neg hlast, if_neg (by omega)]

/-- A colour inside the rectangle is written at its cell (R62). -/
theorem pixelReceived_eq (hw : w.Ordered) (h : w.Filling n g) (hn : n < w.count) (color : Word) :
    g.pixelReceived (be16 color) = { g with
      ram := g.ram.writePixel (w.cell n).1 (w.cell n).2 color,
      wptr := if n + 1 < w.count then .known (w.cell (n + 1)) else .unknown } := by
  have hposition := h.position
  rw [if_pos hn] at hposition
  rw [← h.advance_cell hw hn]
  simp [Ghost.pixelReceived, h.isOpen, hposition, be16, h.format]

/-- A colour past the rectangle loses the frame memory (D26). -/
theorem pixelReceived_excess (h : w.Filling n g) (hn : w.count ≤ n) (bytes : List Byte) : g.pixelReceived bytes = g.forgetRam := by
  have hposition := h.position
  rw [if_neg (Nat.not_lt.2 hn)] at hposition
  simp [Ghost.pixelReceived, h.isOpen, hposition]

theorem pixelReceived (hw : w.Ordered) (h : w.Filling n g) (color : Word) : w.Filling (n + 1) (g.pixelReceived (be16 color)) := by
  rcases Nat.lt_or_ge n w.count with hn | hn
  · rw [h.pixelReceived_eq hw hn]
    exact ⟨h.xs, h.xe, h.ys, h.ye, h.isOpen, h.format, rfl, fun hlost => by omega⟩
  · rw [h.pixelReceived_excess hn]
    exact ⟨h.xs, h.xe, h.ys, h.ye, h.isOpen, h.format, by rw [if_neg (by omega)]; rfl, fun _ => rfl⟩

theorem pixelsReceived (hw : w.Ordered) (h : w.Filling n g) (colors : List Word) :
    w.Filling (n + colors.length) (g.pixelsReceived colors) := by
  induction colors generalizing n g with
  | nil => exact h
  | cons c cs ih =>
    have hstep : n + (c :: cs).length = n + 1 + cs.length := by rw [List.length_cons]; omega
    rw [hstep]
    exact ih (h.pixelReceived hw c)

/-- A byte of no cell that a colour lands at reads as before. -/
theorem readByte_pixelReceived (hw : w.Ordered) (h : w.Filling n g) (hn : n < w.count) {a : Nat} (ha : w.Avoids a n) (color : Word) :
    (g.pixelReceived (be16 color)).ram.readByte a = g.ram.readByte a := by
  rw [h.pixelReceived_eq hw hn]
  exact Memory.readByte_writePixel_other _ ha.1 ha.2

theorem readByte_pixelsReceived (hw : w.Ordered) {colors : List Word} (h : w.Filling n g) (hcount : n + colors.length ≤ w.count) {a : Nat}
    (ha : ∀ k, n ≤ k → k < n + colors.length → w.Avoids a k) : (g.pixelsReceived colors).ram.readByte a = g.ram.readByte a := by
  induction colors generalizing n g with
  | nil => rfl
  | cons c cs ih =>
    rw [List.length_cons] at hcount ha
    have hrest := ih (h.pixelReceived hw c) (by omega) fun k hk hk' => ha k (by omega) (by omega)
    exact hrest.trans (h.readByte_pixelReceived hw (by omega) (ha n (Nat.le_refl _) (by omega)) c)

/-- A cell no colour lands at reads as before. -/
theorem readPixel_pixelsReceived_other (hw : w.Ordered) {colors : List Word} (h : w.Filling n g) (hcount : n + colors.length ≤ w.count)
    {j : Nat} (hj : j < w.count) (hne : ∀ k, n ≤ k → k < n + colors.length → j ≠ k) :
    (g.pixelsReceived colors).ram.readPixel (w.cell j).1 (w.cell j).2 = g.ram.readPixel (w.cell j).1 (w.cell j).2 :=
  Memory.readPixel_congr
    (h.readByte_pixelsReceived hw hcount fun k hk hk' => (avoids_cell hw hj (by omega) (hne k hk hk')).1)
    (h.readByte_pixelsReceived hw hcount fun k hk hk' => (avoids_cell hw hj (by omega) (hne k hk hk')).2)

/-- Colour `k` of a run lies at cell `n + k`. -/
theorem readPixel_pixelsReceived (hw : w.Ordered) {colors : List Word} (h : w.Filling n g) (hcount : n + colors.length ≤ w.count) {k : Nat}
    (hk : k < colors.length) : (g.pixelsReceived colors).ram.readPixel (w.cell (n + k)).1 (w.cell (n + k)).2 = .known colors[k] := by
  induction colors generalizing n g k with
  | nil => cases hk
  | cons c cs ih =>
    rw [List.length_cons] at hcount hk
    have hnext := h.pixelReceived hw c
    cases k with
    | zero =>
      refine (hnext.readPixel_pixelsReceived_other hw (j := n + 0) (by omega) (by omega) fun k hk _ => by omega).trans ?_
      rw [h.pixelReceived_eq hw (by omega)]
      exact Memory.readPixel_writePixel_same ..
    | succ k =>
      rw [show n + (k + 1) = n + 1 + k by omega]
      exact ih hnext (by omega) (by omega)

end Window.Filling

/-! ## From the opening of a stream on -/

/-- The controller has the rectangle as its window (R27, R28). -/
structure Window.IsSet (w : Window) (g : Ghost) : Prop where
  xs : g.xs = .known w.colStart
  xe : g.xe = .known w.colEnd
  ys : g.ys = .known w.rowStart
  ye : g.ye = .known w.rowEnd

/-- The controller after a RAMWR frame (R62). -/
def Ghost.streamOpened (g : Ghost) : Ghost := { g with ramwrOpen := .known true, wptr := g.windowStart }

namespace Window
variable {w : Window} {g : Ghost}

theorem count_pos (w : Window) : 0 < w.count := Nat.mul_pos (Nat.succ_pos _) (Nat.succ_pos _)

theorem cell_zero (w : Window) : w.cell 0 = (w.colStart, w.rowStart) := by simp [cell]

theorem IsSet.windowStart (h : w.IsSet g) : g.windowStart = .known (w.cell 0) := by
  simp [Ghost.windowStart, h.xs, h.xe, h.ys, h.ye, cell_zero]

/-- RAMWR starts the fill at the first cell of a known window. -/
theorem IsSet.filling (h : w.IsSet g) (hformat : sixteenBit g.colmod = true) : w.Filling 0 g.streamOpened :=
  ⟨h.xs, h.xe, h.ys, h.ye, rfl, hformat, by rw [if_pos w.count_pos]; exact h.windowStart, nofun⟩

/-- The calls that set the window. -/
def calls (w : Window) (cfg : Config) : List Call := windowCalls cfg w.colStart w.rowStart w.colEnd w.rowEnd

theorem isSet_calls (w : Window) (cfg : Config) (g : Ghost) :
    w.IsSet (ghostAfter (w.calls cfg) g) ∧ (ghostAfter (w.calls cfg) g).colmod = g.colmod ∧ (ghostAfter (w.calls cfg) g).ram = g.ram := by
  rw [calls, ghostAfter_windowCalls]
  exact ⟨⟨rfl, rfl, rfl, rfl⟩, rfl, rfl⟩

theorem filling_calls (w : Window) (cfg : Config) (hformat : sixteenBit g.colmod = true) :
    w.Filling 0 (ghostAfter (w.calls cfg) g).streamOpened := by
  obtain ⟨hset, hcolmod, -⟩ := w.isSet_calls cfg g
  exact hset.filling (hcolmod ▸ hformat)

end Window

/-! ## Streams whose calls succeed -/

section
variable {s : State} {w : Window} {colors : List Word}

/-- A stream into a rectangle in order, when its calls succeed (R121). -/
theorem exec_writePixelStream_ok (hr : s.Ready) (hw : w.Ordered) (hok : s.AnswersOk (12 + 2 * colors.length)) :
    ∃ t, exec (.writePixelStream w.colStart w.rowStart w.colEnd w.rowEnd colors) s = .next t ∧
      t.ghost = (ghostAfter (w.calls s.cfg) s.ghost).streamOpened.pixelsReceived colors := by
  have hi : OnHandle (.writePixelStream w.colStart w.rowStart w.colEnd w.rowEnd colors) := onHandle rfl nofun
  have hasked : asked (w.calls s.cfg ++ streamCalls s.cfg (some []) colors) ≤ 12 + 2 * colors.length := by
    rw [asked_append, Window.calls, asked_windowCalls, asked_streamCalls]
    split <;> omega
  refine ⟨_, hi.exec_losing_ok hr rfl (script_writePixelStream hw.col hw.row colors) (answersOk_mono hok hasked), ?_⟩
  exact (ghostAfter_append ..).trans (ghostAfter_streamCalls ..)

end

/-- Settles O24: the opening starts at cell 0, and colour `k` lands at cell `k`. -/
theorem streamFillsTheWindowRowMajor : Obligations.StreamFillsTheWindowRowMajor := by
  intro s colStart rowStart colEnd rowEnd colors hr hcol hrow hcount hok hformat
  let w : Window := ⟨colStart, rowStart, colEnd, rowEnd⟩
  have hw : w.Ordered := ⟨hcol, hrow⟩
  have hzero : 0 + colors.length ≤ w.count := by rwa [Nat.zero_add]
  obtain ⟨t, hexec, hghost⟩ := exec_writePixelStream_ok hr hw hok
  have hfill := w.filling_calls s.cfg hformat
  refine ⟨t, hexec, fun k hk => ?_, fun a ha => ?_⟩
  · have hpixel := hfill.readPixel_pixelsReceived hw hzero hk
    rw [Nat.zero_add, ← hghost] at hpixel
    exact hpixel
  · rw [hghost, hfill.readByte_pixelsReceived hw hzero fun k _ hk => ha k (by omega)]
    exact congrArg (Memory.readByte · a) (w.isSet_calls s.cfg s.ghost).2.2

/-- Settles O25: the colour after the last cell finds no position. -/
theorem excessColourForgetsTheFrameMemory : Obligations.ExcessColourForgetsTheFrameMemory := by
  intro s colStart rowStart colEnd rowEnd colors hr hcol hrow hcount hok hformat
  let w : Window := ⟨colStart, rowStart, colEnd, rowEnd⟩
  have hw : w.Ordered := ⟨hcol, hrow⟩
  obtain ⟨t, hexec, hghost⟩ := exec_writePixelStream_ok hr hw hok
  have hfill := (w.filling_calls s.cfg hformat).pixelsReceived hw colors
  have hexcess : w.count < 0 + colors.length := by rwa [Nat.zero_add]
  rw [← hghost] at hfill
  refine ⟨t, hexec, ?_, fun col row => ?_⟩
  · rw [hfill.position, if_neg (Nat.not_lt.2 (Nat.le_of_lt hexcess))]
  · rw [hfill.lost hexcess]
    rfl

/-- Settles O42: a stream without the window's frames. -/
theorem pixelStreamFrameCompletes : Obligations.PixelStreamFrameCompletes := by
  intro s colors hr hok
  have hi : OnHandle (.ramwr colors) := onHandle rfl nofun
  have hasked : asked (streamCalls s.cfg none colors) = 2 + 2 * colors.length := asked_streamCalls s.cfg none colors
  have hghost : ghostAfter (streamCalls s.cfg none colors) s.ghost = s.ghost.streamOpened.pixelsReceived colors := ghostAfter_streamCalls ..
  refine ⟨_, hi.exec_losing_ok hr rfl (script_ramwr ..) (hasked ▸ hok), ?_, rfl, ?_, ?_, fun hstart => ?_, ?_, ?_⟩
  · simp [State.succeeded, eventsOf_streamCalls]
  · dsimp only
    rw [hghost, pixelsReceived_keeps]
    rfl
  · simp [State.succeeded, hasked]
  · obtain ⟨hpos, hram⟩ := pixelsReceived_of_unknown (colors := colors) (g := s.ghost.streamOpened) rfl hstart
    rw [← hghost] at hpos hram
    exact ⟨hpos, fun hne col row => congrArg (Memory.readPixel · col row) (hram hne)⟩
  · rintro rfl
    exact ⟨rfl, rfl⟩
  · intro colStart rowStart colEnd rowEnd hxs hys hxe hye hcol hrow hformat hcount k hk
    let w : Window := ⟨colStart, rowStart, colEnd, rowEnd⟩
    have hset : w.IsSet s.ghost := ⟨hxs, hxe, hys, hye⟩
    have hpixel := (hset.filling hformat).readPixel_pixelsReceived ⟨hcol, hrow⟩ (by rwa [Nat.zero_add]) hk
    rw [Nat.zero_add, ← hghost] at hpixel
    exact hpixel

/-! ## A stream cut at a pixel -/

/-- The bus call in doubt: the pixel being written is unknown (R124, R189). -/
theorem Window.Filling.ram_pixelInDoubt {w : Window} {n : Nat} {g : Ghost} (h : w.Filling n g) (hn : n < w.count) :
    g.pixelInDoubt.ram = g.ram.forgetPixel (w.cell n).1 (w.cell n).2 := by
  have hposition := h.position
  rw [if_pos hn] at hposition
  simp [Ghost.pixelInDoubt, h.isOpen, hposition, h.format]

/-- The calls of a stream up to the bus write of pixel `k`, that call, and those after it. -/
theorem streamCalls_split (cfg : Config) (params : Option (List Byte)) {colors : List Word} {k : Nat} (hk : k < colors.length) :
    streamCalls cfg params colors =
      streamCalls cfg params (colors.take k) ++ [⟨.pin .dc (dcDataLevel cfg) .ok, id, id⟩] ++
        ⟨.bus (be16 colors[k]) .ok, Ghost.pixelInDoubt, Ghost.pixelReceived (be16 colors[k])⟩ ::
          (colors.drop (k + 1)).flatMap (pixelCalls cfg) := by
  have hcolors : colors = colors.take k ++ colors[k] :: colors.drop (k + 1) := by
    rw [← List.drop_eq_getElem_cons hk, List.take_append_drop]
  have hpixels := congrArg (List.flatMap (pixelCalls cfg)) hcolors
  rw [List.flatMap_append, List.flatMap_cons] at hpixels
  rw [streamCalls, hpixels]
  simp [streamCalls, pixelCalls]

section
variable {s : State} {w : Window} {colors : List Word} {k : Nat}

/-- A stream whose `k`-th bus write of a pixel is the first call to fail (R124, R189). -/
theorem exec_writePixelStream_cut (hr : s.Ready) (hw : w.Ordered) (hempty : s.cfg.emptyParamsDataPhase = false) (hk : k < colors.length)
    {e : ErrorValue} {rest : List Answer} (henv : s.env = List.replicate (11 + 2 * k) .ok ++ .fail e :: rest) :
    ∃ t, exec (.writePixelStream w.colStart w.rowStart w.colEnd w.rowEnd colors) s = .next t ∧
      t.results = s.results ++ [⟨some (.busError e), none⟩] ∧
      t.ghost = ((ghostAfter (w.calls s.cfg) s.ghost).streamOpened.pixelsReceived (colors.take k)).pixelInDoubt.addressingInDoubt := by
  have hi : OnHandle (.writePixelStream w.colStart w.rowStart w.colEnd w.rowEnd colors) := onHandle rfl nofun
  have hs := script_writePixelStream (cfg := s.cfg) (hasCs := s.hasCs) hw.col hw.row colors
  rw [streamCalls_empty hempty, streamCalls_split _ _ hk, ← List.append_assoc, ← List.append_assoc] at hs
  have hasked : asked (windowCalls s.cfg w.colStart w.rowStart w.colEnd w.rowEnd ++ streamCalls s.cfg none (colors.take k) ++
      [⟨.pin .dc (dcDataLevel s.cfg) .ok, id, id⟩]) = 11 + 2 * k := by
    rw [asked_append, asked_append, asked_windowCalls, asked_streamCalls, List.length_take_of_le (Nat.le_of_lt hk)]
    show 8 + (2 + 2 * k) + 1 = _
    omega
  refine ⟨_, hi.exec_losing_fail hr rfl (by simp) hs rfl (hasked ▸ henv), rfl, ?_⟩
  refine congrArg (fun g : Ghost => g.pixelInDoubt.addressingInDoubt) ?_
  exact (ghostAfter_append ..).trans ((ghostAfter_append ..).trans (ghostAfter_streamCalls ..))

variable {g : Ghost} (hw : w.Ordered) (h : w.Filling 0 g) (hcount : colors.length ≤ w.count) (hk : k < colors.length)
include hw h hcount hk

theorem Window.Filling.ram_cut : (g.pixelsReceived (colors.take k)).pixelInDoubt.ram =
    (g.pixelsReceived (colors.take k)).ram.forgetPixel (w.cell k).1 (w.cell k).2 := by
  have hdrawn := h.pixelsReceived hw (colors.take k)
  rw [List.length_take_of_le (Nat.le_of_lt hk), Nat.zero_add] at hdrawn
  exact hdrawn.ram_pixelInDoubt (by omega)

/-- The pixels of a stream whose pixel `k` is in doubt. -/
theorem Window.Filling.readPixel_cut {j : Nat} (hj : j < colors.length) :
    (g.pixelsReceived (colors.take k)).pixelInDoubt.ram.readPixel (w.cell j).1 (w.cell j).2 =
      if j < k then .known colors[j] else if j = k then .unknown else g.ram.readPixel (w.cell j).1 (w.cell j).2 := by
  have hlength : (colors.take k).length = k := List.length_take_of_le (Nat.le_of_lt hk)
  rw [h.ram_cut hw hcount hk]
  rcases Nat.lt_trichotomy j k with hlt | rfl | hgt
  · have hpixel := h.readPixel_pixelsReceived hw (colors := colors.take k) (by omega) (k := j) (by omega)
    rw [Nat.zero_add, List.getElem_take] at hpixel
    rw [if_pos hlt, Memory.readPixel_forgetPixel_other _ fun heq => by have := cell_inj hw (by omega) (by omega) heq; omega, hpixel]
  · rw [if_neg (Nat.lt_irrefl _), if_pos rfl, Memory.readPixel_forgetPixel_same]
  · rw [if_neg (by omega), if_neg (by omega),
      Memory.readPixel_forgetPixel_other _ fun heq => by have := cell_inj hw (by omega) (by omega) heq; omega]
    exact h.readPixel_pixelsReceived_other hw (by omega) (by omega) fun i _ hi => by omega

theorem Window.Filling.readByte_cut {a : Nat} (ha : ∀ j ≤ k, w.Avoids a j) :
    (g.pixelsReceived (colors.take k)).pixelInDoubt.ram.readByte a = g.ram.readByte a := by
  have hlength : (colors.take k).length = k := List.length_take_of_le (Nat.le_of_lt hk)
  obtain ⟨hhigh, hlow⟩ := ha k (Nat.le_refl _)
  rw [h.ram_cut hw hcount hk, Memory.readByte_forgetPixel_other _ hhigh hlow]
  exact h.readByte_pixelsReceived hw (by omega) fun j _ hj => ha j (by omega)

end

/-- Settles O28: the pixels before the failure are the stream's first `k`, and the one in doubt is cell `k`. -/
theorem pixelsBeforeAFailureAreWritten : Obligations.PixelsBeforeAFailureAreWritten := by
  intro s colStart rowStart colEnd rowEnd colors k e rest hr hcol hrow hcount hempty hk henv hformat
  let w : Window := ⟨colStart, rowStart, colEnd, rowEnd⟩
  have hw : w.Ordered := ⟨hcol, hrow⟩
  obtain ⟨t, hexec, hres, hghost⟩ := exec_writePixelStream_cut hr hw hempty hk henv
  have hfill := w.filling_calls s.cfg hformat
  have hstart : (ghostAfter (w.calls s.cfg) s.ghost).streamOpened.ram = s.ghost.ram := (w.isSet_calls s.cfg s.ghost).2.2
  refine ⟨t, hexec, hres, fun j hj => ?_, fun a ha => ?_⟩
  · have hpixel := hfill.readPixel_cut hw hcount hk hj
    rw [hstart] at hpixel
    rw [hghost]
    exact hpixel
  · rw [hghost, ← hstart]
    exact hfill.readByte_cut hw hcount hk ha

/-! ## Bytes outside a stream's cells -/

section
variable {cfg : Config} {P : Ghost → Prop} {a b : List Call} {g : Ghost}

/-- Along calls in sequence, the second part starting where the first ends. -/
theorem GhostAlways.append_after (ha : GhostAlways P a g) (hb : GhostAlways P b (ghostAfter a g)) : GhostAlways P (a ++ b) g := by
  induction a generalizing g with
  | nil => exact hb
  | cons c cs ih => exact ⟨ha.1, ih ha.2 hb⟩

theorem opcodeReceived_ram (cmd : Cmd) (g : Ghost) : (g.opcodeReceived cmd).ram = g.ram := by cases cmd <;> rfl

/-- A frame but for the software reset keeps what is said of the frame memory, whatever way it ends. -/
theorem maintains_frame_ram {Q : Memory → Prop} {cmd : Cmd} (hcmd : cmd ≠ .swreset) (params : Option (List Byte)) :
    Maintains (fun g => Q g.ram) (frameCalls cfg cmd params) := by
  have hcut (g : Ghost) : (g.frameCut cmd).ram = g.ram := by
    cases cmd with
    | swreset => exact absurd rfl hcmd
    | _ => rfl
  have hdoubt (g : Ghost) : (g.opcodeInDoubt cmd).ram = g.ram := by
    rw [Ghost.opcodeInDoubt]
    split <;> exact hcut g
  have hdone (g : Ghost) : (g.frameReceived cmd (params.getD [])).ram = g.ram := by
    cases cmd with
    | swreset => exact absurd rfl hcmd
    | caset | raset | madctl | colmod =>
      simp only [Ghost.frameReceived]
      split <;> rfl
    | _ => rfl
  refine maintains_frame (fun g hg => ?_) (fun g hg => ?_) fun g hg => ?_
  · rwa [hdoubt]
  · rwa [hcut, opcodeReceived_ram]
  · rwa [hdone, opcodeReceived_ram]

/-- A window operation that is out of order makes none of the calls that would follow it. -/
theorem windowScript_calls_of_not_ordered {w : Window} (h : ¬ w.Ordered) (rest : List Call) :
    (windowScript cfg w.colStart w.rowStart w.colEnd w.rowEnd rest).calls =
      (windowScript cfg w.colStart w.rowStart w.colEnd w.rowEnd []).calls := by
  unfold windowScript
  split
  · rfl
  next hcol =>
    split
    · rfl
    next hrow => exact absurd ⟨BitVec.not_lt.1 hcol, BitVec.not_lt.1 hrow⟩ h

end

/-- The byte at `a` reads as it does in `m`. -/
def Memory.SameAt (m : Memory) (a : Nat) (g : Ghost) : Prop := g.ram.readByte a = m.readByte a

section
variable {cfg : Config} {w : Window} {n : Nat} {g : Ghost} {m : Memory} {a : Nat} {colors : List Word}

/-- The pixels of a stream keep a byte of none of their cells, whatever way the stream ends. -/
theorem Window.Filling.pixels_keep (hw : w.Ordered) (h : w.Filling n g) (hcount : n + colors.length ≤ w.count)
    (ha : ∀ k, n ≤ k → k < n + colors.length → w.Avoids a k) (hg : m.SameAt a g) :
    GhostAlways (m.SameAt a) (colors.flatMap (pixelCalls cfg)) g := by
  induction colors generalizing n g with
  | nil => exact hg
  | cons c cs ih =>
    rw [List.length_cons] at hcount ha
    have havoids := ha n (Nat.le_refl _) (by omega)
    have hdoubt : m.SameAt a g.pixelInDoubt := by
      rw [Memory.SameAt, h.ram_pixelInDoubt (by omega), Memory.readByte_forgetPixel_other _ havoids.1 havoids.2]
      exact hg
    have hdone : m.SameAt a (g.pixelReceived (be16 c)) := (h.readByte_pixelReceived hw (by omega) havoids c).trans hg
    exact ⟨hg, hdoubt, ih (h.pixelReceived hw c) (by omega) (fun k hk hk' => ha k (by omega) (by omega)) hdone⟩

theorem frame_keeps {cmd : Cmd} (hcmd : cmd ≠ .swreset) (params : Option (List Byte)) : Maintains (m.SameAt a) (frameCalls cfg cmd params) :=
  maintains_frame_ram (Q := fun r => r.readByte a = m.readByte a) hcmd params

/-- A stream into a known window keeps a byte of none of its cells, whatever way it ends. -/
theorem stream_keeps (hw : w.Ordered) (hset : w.IsSet g) (hformat : sixteenBit g.colmod = true) (params : Option (List Byte))
    (hcount : colors.length ≤ w.count) (ha : ∀ k < colors.length, w.Avoids a k) (hg : m.SameAt a g) :
    GhostAlways (m.SameAt a) (streamCalls cfg params colors) g := by
  refine GhostAlways.append_after (frame_keeps (cmd := .ramwr) nofun params g hg) ?_
  rw [ghostAfter_frameCalls]
  exact (hset.filling hformat).pixels_keep hw (by omega) (fun k _ hk => ha k (by omega)) hg

/-- A window and a stream into it keep a byte of none of its cells, whatever way they end. -/
theorem windowStream_keeps (hw : w.Ordered) (hformat : sixteenBit g.colmod = true) (params : Option (List Byte))
    (hcount : colors.length ≤ w.count) (ha : ∀ k < colors.length, w.Avoids a k) (hg : m.SameAt a g) :
    GhostAlways (m.SameAt a) (Script.ofCalls (w.calls cfg ++ streamCalls cfg params colors)).losing.calls g := by
  obtain ⟨hset, hcolmod, hram⟩ := w.isSet_calls cfg g
  have hwindow : Maintains (m.SameAt a) (w.calls cfg) := (frame_keeps (cmd := .caset) nofun _).append (frame_keeps (cmd := .raset) nofun _)
  refine GhostAlways.losing (fun _ h => h) ((hwindow g hg).append_after (stream_keeps hw hset (hcolmod ▸ hformat) params hcount ha ?_))
  rw [Memory.SameAt, hram]
  exact hg

end

/-- Settles O56: a single pixel is a stream of one colour into its one cell. -/
theorem singlePixelMemoryFrame : Obligations.SinglePixelMemoryFrame := by
  intro s t x y color hformat h a hhigh hlow
  obtain ⟨-, rfl⟩ := accepts_of_exec_next h
  let w : Window := ⟨x, y, x, y⟩
  have hw : w.Ordered := ⟨BitVec.le_refl _, BitVec.le_refl _⟩
  have havoids (k : Nat) (hk : k < [color].length) : w.Avoids a k := by
    obtain rfl : k = 0 := by simpa using hk
    rw [Window.Avoids, Window.addr, Window.cell_zero]
    exact ⟨hhigh, hlow⟩
  rw [answerOf_ghost]
  refine runOf_ghost (P := s.ghost.ram.SameAt a) ?_
  rw [script_writeSinglePixel]
  exact windowStream_keeps hw hformat none w.count_pos havoids rfl

/-- Settles O57: out of order no pixel is sent; in order the colours land in their cells. -/
theorem pixelStreamMemoryFrame : Obligations.PixelStreamMemoryFrame := by
  intro s t colStart rowStart colEnd rowEnd colors hformat hcount h a ha
  let w : Window := ⟨colStart, rowStart, colEnd, rowEnd⟩
  rcases h with h | ⟨hxs, hys, hxe, hye, hcol, hrow, h⟩
  all_goals
    obtain ⟨-, rfl⟩ := accepts_of_exec_next h
    rw [answerOf_ghost]
    refine runOf_ghost (P := s.ghost.ram.SameAt a) ?_
  · by_cases hw : w.Ordered
    · rw [script_writePixelStream hw.col hw.row]
      exact windowStream_keeps hw hformat _ hcount ha rfl
    · rw [script, Script.losing, windowScript_calls_of_not_ordered (w := w) hw]
      exact (maintains_window (fun _ => frame_keeps (cmd := .caset) nofun _) (fun _ => frame_keeps (cmd := .raset) nofun _) maintains_nil).losing (fun _ h => h) _ rfl
  · have hset : w.IsSet s.ghost := ⟨hxs, hxe, hys, hye⟩
    exact (stream_keeps ⟨hcol, hrow⟩ hset hformat none hcount ha rfl).losing fun _ h => h

end Sys2Proof.Machine
